-- ==== Sys2Proof/Word.lean ====
section
/-! DEFINITION. The word types of the machine and their plainest arithmetic (R4 to R6, R42). -/

namespace Sys2Proof

/-- A 32-bit register or instruction word. -/
abbrev Word := BitVec 32

/-- A byte of memory. -/
abbrev Byte := BitVec 8

/-- A 64-bit value: a register pair, an address, a package register. -/
abbrev DWord := BitVec 64

end Sys2Proof
end

