-- ==== Sys2Proof/Syntax.lean ====
section
/-! DEFINITION. The instructions of the package and the steps its other agents take: one constructor of Instr for
each row of spec/opcode_table.json. Register numbers, types, rounding, scopes and conditions are decoded here once;
the machine never sees an encoded field. -/

namespace Sys2Proof

/-- A lane register named relative to the window base, v0 to v63 (R144). -/
abbrev LReg := Fin 64
/-- A scalar register, s0 to s63 (R144). -/
abbrev SReg := Fin 64
/-- A predicate, p0 to p7; p7 is constant true (R143, R146). -/
abbrev PReg := Fin 8

/-- The guard of a lane instruction (R145). -/
structure Guard where
  pred : PReg
  neg : Bool
  deriving DecidableEq, Repr

/-- Element types by the codes of R153. -/
inductive ETy where
  | i8 | i16 | i32 | i64 | n8 | n16 | n32 | n64 | f16 | bf16 | f32 | f64 | e4m3 | e5m2 | q4 | mx4
  deriving DecidableEq, Repr

/-- The rounding field of an extension word (R49); mode stands for the mode register's RM. -/
inductive Rnd where
  | mode | rn | rz | rd | ru | ra
  deriving DecidableEq, Repr

/-- The order field of the M form (R155). -/
inductive Order where
  | relaxed | acq | rel | ar
  deriving DecidableEq, Repr

/-- The scope field of the M form (R155, R265). -/
inductive Scope where
  | grp | team | core | die | pkg | fab
  deriving DecidableEq, Repr

/-- The atomic operations (R156, R280). -/
inductive AtomOp where
  | add | min | max | and | or | xor | exch
  deriving DecidableEq, Repr

/-- The comparisons of WAITV and WAITVM (R156) and of SCMP (R149). -/
inductive Cmp where
  | eq | ne | lt | ge | ltu | geu
  deriving DecidableEq, Repr

/-- The conditions of SETcc (R154). -/
inductive SetCond where
  | eq | ne | lt | le | gt | ge | un
  deriving DecidableEq, Repr

/-- The conditions of BRA (R149), each with the registers it reads. -/
inductive BraCond where
  | always
  | z (a : SReg) | nz (a : SReg) | ltz (a : SReg) | gez (a : SReg)
  | cmp (c : Cmp) (a b : SReg)
  | none | any | all
  deriving DecidableEq, Repr

/-- The access paths that have a counter (R150, R256). -/
inductive Path where
  | copyIn | copyOut | gather | stream
  deriving DecidableEq, Repr

/-- The selectors of LID (R159, R204). -/
inductive LidSel where
  | lane | plane | position
  deriving DecidableEq, Repr

/-- The selectors of SID, in the order of R238. -/
inductive SidSel where
  | slice | group | role | teamLinear | teamX | teamY | teamZ | die | core | subCore
  | width | em | partition | codeVersion | tag | generation | level | wb | depth
  deriving DecidableEq, Repr

/-! Operands of the lane instructions (R143, R152, R155, R157). -/

structure LaneR where
  g : Guard
  d : LReg
  a : LReg
  b : LReg
  deriving DecidableEq, Repr

structure LaneI where
  g : Guard
  d : LReg
  a : LReg
  imm : Word
  deriving DecidableEq, Repr

structure LaneU where
  g : Guard
  d : LReg
  a : LReg
  deriving DecidableEq, Repr

structure LaneM where
  g : Guard
  d : LReg
  imm : Word
  deriving DecidableEq, Repr

structure CmpR where
  g : Guard
  pd : PReg
  a : LReg
  b : LReg
  deriving DecidableEq, Repr

structure CmpI where
  g : Guard
  pd : PReg
  a : LReg
  imm : Word
  deriving DecidableEq, Repr

structure PredU where
  g : Guard
  pd : PReg
  pa : PReg
  deriving DecidableEq, Repr

structure PredB where
  g : Guard
  pd : PReg
  pa : PReg
  pb : PReg
  deriving DecidableEq, Repr

structure PredI where
  g : Guard
  d : LReg
  pa : PReg
  deriving DecidableEq, Repr

structure LidArgs where
  g : Guard
  d : LReg
  sel : LidSel
  deriving DecidableEq, Repr

/-- ADD, SUB, MUL, DIV. -/
structure TypedB where
  g : Guard
  t : ETy
  rm : Rnd
  sat : Bool
  d : LReg
  a : LReg
  b : LReg
  deriving DecidableEq, Repr

/-- MAD. -/
structure TypedC where
  g : Guard
  t : ETy
  rm : Rnd
  sat : Bool
  d : LReg
  a : LReg
  b : LReg
  c : LReg
  deriving DecidableEq, Repr

/-- MIN, MAX and the typed shifts. -/
structure TypedP where
  g : Guard
  t : ETy
  d : LReg
  a : LReg
  b : LReg
  deriving DecidableEq, Repr

structure SetccArgs where
  g : Guard
  t : ETy
  cc : SetCond
  pd : PReg
  a : LReg
  b : LReg
  deriving DecidableEq, Repr

/-- NEG, ABS. -/
structure TypedS where
  g : Guard
  t : ETy
  sat : Bool
  d : LReg
  a : LReg
  deriving DecidableEq, Repr

/-- SQRT. -/
structure TypedQ where
  g : Guard
  t : ETy
  rm : Rnd
  sat : Bool
  d : LReg
  a : LReg
  deriving DecidableEq, Repr

/-- RNDI. -/
structure TypedN where
  g : Guard
  t : ETy
  rm : Rnd
  d : LReg
  a : LReg
  deriving DecidableEq, Repr

/-- FCLASS and the special functions. -/
structure TypedU where
  g : Guard
  t : ETy
  d : LReg
  a : LReg
  deriving DecidableEq, Repr

structure CvtArgs where
  g : Guard
  t : ETy
  u : ETy
  rm : Rnd
  sat : Bool
  d : LReg
  a : LReg
  deriving DecidableEq, Repr

structure Dp4Args where
  g : Guard
  u : ETy
  sat : Bool
  d : LReg
  a : LReg
  b : LReg
  c : LReg
  deriving DecidableEq, Repr

structure SwapArgs where
  g : Guard
  d : LReg
  a : LReg
  m : Fin 64
  deriving DecidableEq, Repr

structure PrmtArgs where
  g : Guard
  d : LReg
  a : LReg
  b : LReg
  c : LReg
  deriving DecidableEq, Repr

structure LdArgs where
  g : Guard
  t : ETy
  ord : Order
  scope : Scope
  d : LReg
  a : LReg
  deriving DecidableEq, Repr

structure StArgs where
  g : Guard
  t : ETy
  ord : Order
  scope : Scope
  a : LReg
  b : LReg
  deriving DecidableEq, Repr

structure AtomArgs where
  g : Guard
  op : AtomOp
  t : ETy
  rm : Rnd
  ord : Order
  scope : Scope
  d : LReg
  a : LReg
  b : LReg
  deriving DecidableEq, Repr

structure CasArgs where
  g : Guard
  t : ETy
  ord : Order
  scope : Scope
  d : LReg
  a : LReg
  b : LReg
  c : LReg
  deriving DecidableEq, Repr

structure DepositArgs where
  g : Guard
  a : LReg
  b : LReg
  deriving DecidableEq, Repr

/-- MMA and MMAS; n is the code of R157: 0 is 64, 1 is 128, 2 is 256 columns. -/
structure MmaArgs where
  g : Guard
  k : Bool
  d : LReg
  a : LReg
  fb : SReg
  sbm : SReg
  n : Fin 3
  deriving DecidableEq, Repr

/-- MMV; nv is the number of resident vectors minus 1. -/
structure MmvArgs where
  g : Guard
  k : Bool
  d : LReg
  a : LReg
  fb : SReg
  sbm : SReg
  nv : Fin 8
  deriving DecidableEq, Repr

/-! Operands of the scalar instructions (R148, R151, R155). -/

structure SclR where
  d : SReg
  a : SReg
  b : SReg
  deriving DecidableEq, Repr

structure SclI where
  d : SReg
  a : SReg
  imm : Word
  deriving DecidableEq, Repr

structure SclU where
  d : SReg
  a : SReg
  deriving DecidableEq, Repr

structure SclM where
  d : SReg
  imm : Word
  deriving DecidableEq, Repr

structure ScmpR where
  cc : Cmp
  d : SReg
  a : SReg
  b : SReg
  deriving DecidableEq, Repr

structure ScmpI where
  cc : Cmp
  d : SReg
  a : SReg
  imm : Word
  deriving DecidableEq, Repr

structure BraArgs where
  cc : BraCond
  disp : Word
  deriving DecidableEq, Repr

structure CallArgs where
  d : SReg
  w : Fin 64
  disp : Word
  deriving DecidableEq, Repr

structure MsplitArgs where
  d : SReg
  p : PReg
  neg : Bool
  deriving DecidableEq, Repr

structure SidArgs where
  d : SReg
  sel : SidSel
  deriving DecidableEq, Repr

/-- LDARG: off counts 32-bit words of the argument area (bits 5 to 2 of the immediate, R239). -/
structure LdargArgs where
  d : SReg
  off : Fin 16
  deriving DecidableEq, Repr

structure SldArgs where
  t : ETy
  ord : Order
  scope : Scope
  d : SReg
  a : SReg
  deriving DecidableEq, Repr

structure SstArgs where
  t : ETy
  ord : Order
  scope : Scope
  a : SReg
  b : SReg
  deriving DecidableEq, Repr

structure SatomArgs where
  op : AtomOp
  t : ETy
  rm : Rnd
  ord : Order
  scope : Scope
  d : SReg
  a : SReg
  b : SReg
  deriving DecidableEq, Repr

structure ScasArgs where
  t : ETy
  ord : Order
  scope : Scope
  d : SReg
  a : SReg
  b : SReg
  c : SReg
  deriving DecidableEq, Repr

/-- FENCE; bit i of classes names the access-path class i of R254. -/
structure FenceArgs where
  ord : Order
  scope : Scope
  classes : BitVec 6
  deriving DecidableEq, Repr

structure WaitpArgs where
  path : Path
  a : SReg
  deriving DecidableEq, Repr

structure WaitvArgs where
  t : ETy
  ord : Order
  scope : Scope
  cc : Cmp
  d : SReg
  a : SReg
  b : SReg
  deriving DecidableEq, Repr

structure WaitvmArgs where
  t : ETy
  ord : Order
  scope : Scope
  cc : Cmp
  d : SReg
  a : SReg
  b : SReg
  c : SReg
  deriving DecidableEq, Repr

/-- BAR; count is the field of R286 minus 1. -/
structure BarArgs where
  d : SReg
  timeout : BitVec 16
  count : Fin 16
  barrier : Fin 16
  deriving DecidableEq, Repr

structure GatherArgs where
  d : SReg
  a : SReg
  b : SReg
  c : SReg
  deriving DecidableEq, Repr

structure XpandArgs where
  t : ETy
  rm : Rnd
  sat : Bool
  d : SReg
  a : SReg
  b : SReg
  c : SReg
  deriving DecidableEq, Repr

/-- RCOPY and PUT. -/
structure RputArgs where
  ord : Order
  scope : Scope
  d : SReg
  a : SReg
  b : SReg
  c : SReg
  deriving DecidableEq, Repr

structure HeaderArgs where
  wait : BitVec 12
  rflag : Option (Fin 12)
  sflag : Option (Fin 12)
  yield : Fin 8
  deriving DecidableEq, Repr

/-! Operands of the steps of the package's other agents. Each says which unit acts and what the outside or an order
that is not architectural decides; the rest the step reads from the state. -/

/-- A message that arrives at one of the eighteen fabric ports (R69, R70). -/
structure Message where
  port : Fin 18
  source : Word
  payload : List Byte
  deriving DecidableEq, Repr

/-- A management command (R405), with the port and source it arrived from and its 40 reserved or command bytes. -/
structure MgmtCmd where
  port : Fin 18
  source : Word
  op : BitVec 16
  partition : BitVec 8
  die : BitVec 8
  tag : Word
  operand0 : DWord
  operand1 : DWord
  tail : List Byte
  deriving DecidableEq, Repr

/-- Bulk data for an address of the partition of its sender (R69, R266). -/
structure BulkData where
  port : Fin 18
  source : Word
  address : DWord
  bytes : List Byte
  deriving DecidableEq, Repr

/-- A core of a compute die (R14). -/
structure CoreRef where
  die : Fin 8
  core : Nat
  deriving DecidableEq, Repr

/-- A sub-core. -/
structure SubRef where
  die : Fin 8
  core : Nat
  sub : Fin 4
  deriving DecidableEq, Repr

/-- A resident gang: the team's uid and the gang's number in it. -/
structure GangRef where
  team : Nat
  gang : Nat
  deriving DecidableEq, Repr

/-- A group of a resident team. -/
structure GroupRef where
  team : Nat
  group : Nat
  deriving DecidableEq, Repr

/-- An outstanding operation of a group, by its number in the group. -/
structure OpRef where
  team : Nat
  group : Nat
  op : Nat
  deriving DecidableEq, Repr

structure PlaceArgs where
  launch : Nat
  die : Fin 8
  core : Nat
  deriving DecidableEq, Repr

/-- A text page of the code version that a launch is bound to, on a compute die (R135). -/
structure PageRef where
  die : Fin 8
  launch : Nat
  page : Nat
  deriving DecidableEq, Repr

/-- A virtual address of a partition's global window. -/
structure VaRef where
  partition : Fin 16
  va : DWord
  deriving DecidableEq, Repr

/-- One of the accesses, chunks or steps that an outstanding operation still has to perform, by its place in the order in
which the operation holds them. -/
structure PartRef where
  team : Nat
  group : Nat
  op : Nat
  pick : Nat
  deriving DecidableEq, Repr

/-- A landing in flight and the run that lands: the offset in its target at which it begins, and how many 32-byte granules it
holds (R262, R263). -/
structure LandingArgs where
  landing : Nat
  start : Nat
  granules : Nat
  deriving DecidableEq, Repr

structure BarrierRef where
  team : Nat
  barrier : Fin 16
  deriving DecidableEq, Repr

/-- A swap under R99: the team saved and the core it sits on. -/
structure SwapTeamArgs where
  die : Fin 8
  core : Nat
  team : Nat
  deriving DecidableEq, Repr

/-- A saved team and the core that takes it (R380). -/
structure SwapRestoreArgs where
  image : Nat
  die : Fin 8
  core : Nat
  deriving DecidableEq, Repr

/-- Where a soft error strikes (R360). -/
inductive EccTarget where
  | granule (die : Fin 14) (granule : Nat)
  | shared (team : Nat) (granule : Nat)
  | laneReg (team group lane index : Nat)
  | scalarReg (team group slice : Nat) (reg : SReg)
  deriving DecidableEq, Repr

structure EccArgs where
  die : Fin 14
  target : EccTarget
  correctable : Bool
  deriving DecidableEq, Repr

/-- An illegal one-hot state: the cluster, the core it shows in, and the unit code of R365. -/
structure CheckArgs where
  die : Fin 8
  cluster : Nat
  core : Nat
  unit : Fin 5
  deriving DecidableEq, Repr

/-- How the attempts of bring-up end (R400 to R402): the firmware check, the near and far dies that train, the
installed capacity of the far dies in bytes, the capability word of each compute die that answers, the code of a failure,
and the attempt, counted from 0, in which power is lost (R401). -/
structure BringUp where
  firmwareOk : Bool
  firmwareDigest : BitVec 256
  nearOk : Vector Bool 4
  farOk : Vector Bool 2
  farBytes : Vector Nat 2
  compute : Vector (Option Word) 8
  detail : DWord
  lostAt : Option Nat
  deriving DecidableEq, Repr

/-- What arrives for a tile that is being saved: the response to a request of an operation or of a value wait, or an admitted
put (R377). -/
inductive WheyRef where
  | response (op : PartRef)
  | wait (team group slice : Nat)
  | put (landing : Nat)
  deriving DecidableEq, Repr

structure WheyArgs where
  die : Fin 8
  core : Nat
  what : WheyRef
  deriving DecidableEq, Repr

/-- The end of a pattern run that aborts: whole microseconds run (R384, R385). -/
structure AbortArgs where
  die : Fin 8
  core : Nat
  elapsed : Nat
  deriving DecidableEq, Repr

/-- One constructor for each row of spec/opcode_table.json, those without operands last (the compiler numbers at
most 244 constructors that have fields). A management command's operands are the command that the controller is
carrying out, which the state holds. SYSWR's operand d names the register of the number (sa) and a the pair that is
written (sb). -/
inductive Instr where
  /-- LAUNCH_PACKET (R77) -/
  | launchPacket (o : Message)
  /-- LAUNCH_DISPATCH (R78) -/
  | launchDispatch (o : Fin 2)
  /-- INSTALL (R79) -/
  | install (o : Fin 2)
  /-- EVENT_SEND (R80) -/
  | eventSend (o : Option (Fin 16))
  /-- TEAM_PLACEMENT (R91) -/
  | teamPlacement (o : PlaceArgs)
  /-- CLAUSE_FILL (R124) -/
  | clauseFill (o : GangRef)
  /-- TEXT_PAGE_VERIFY (R135) -/
  | textPageVerify (o : PageRef)
  /-- ROUND_ROBIN_TURN (R180) -/
  | roundRobinTurn (o : SubRef)
  /-- YIELD_DEFERRAL_END (R182) -/
  | yieldDeferralEnd (o : GangRef)
  /-- VARIABLE_LATENCY_RESULT (R193) -/
  | variableLatencyResult (o : OpRef)
  /-- MEMORY_ACCESS_RETURN (R275) -/
  | memoryAccessReturn (o : PartRef)
  /-- COPY_RETURN (R257) -/
  | copyReturn (o : PartRef)
  /-- PARKED_ACCESS_REPLAY (R359) -/
  | parkedAccessReplay (o : VaRef)
  /-- RCOPY_LANDING (R262) -/
  | rcopyLanding (o : LandingArgs)
  /-- PUT_LANDING (R263) -/
  | putLanding (o : LandingArgs)
  /-- HELD_PUT_DELIVERY (R376) -/
  | heldPutDelivery (o : LandingArgs)
  /-- TILE_DELIVERY (R328) -/
  | tileDelivery (o : OpRef)
  /-- ACCUMULATOR_WRITE (R326) -/
  | accumulatorWrite (o : PartRef)
  /-- BARRIER_TIMEOUT (R287) -/
  | barrierTimeout (o : BarrierRef)
  /-- WAITV_REREAD (R285) -/
  | waitvReread (o : GangRef)
  /-- TEAM_SWAP (R99) -/
  | teamSwap (o : SwapTeamArgs)
  /-- SWAP_RESTORE (R380) -/
  | swapRestore (o : SwapRestoreArgs)
  /-- GROUP_END (R236) -/
  | groupEnd (o : GroupRef)
  /-- LAUNCH_COMPLETE (R390) -/
  | launchComplete (o : Nat)
  /-- COLLAPSE (R113) -/
  | collapse (o : VaRef)
  /-- ECC_ERROR (R360) -/
  | eccError (o : EccArgs)
  /-- CLUSTER_CHECK_DRAIN (R366) -/
  | clusterCheckDrain (o : CheckArgs)
  /-- THERMAL_TRIP (R26) -/
  | thermalTrip (o : Fin 14)
  /-- POWER_ON (R400) -/
  | powerOn (o : BringUp)
  /-- TILE_STOP_SAVE (R376) -/
  | tileStopSave (o : CoreRef)
  /-- WHEY_ENTRY (R376) -/
  | wheyEntry (o : WheyArgs)
  /-- SAVE_SEAL (R376) -/
  | saveSeal (o : CoreRef)
  /-- TILE_RESTORE (R379) -/
  | tileRestore (o : CoreRef)
  /-- IN_FIELD_SCAN_TEST (R384) -/
  | inFieldScanTest (o : CoreRef)
  /-- SCAN_DRAIN_END (R384) -/
  | scanDrainEnd (o : CoreRef)
  /-- SCAN_PATTERN_RUN_END (R384) -/
  | scanPatternRunEnd (o : CoreRef)
  /-- SCAN_TEST_ABORT (R385) -/
  | scanTestAbort (o : AbortArgs)
  /-- TILE_START (R383) -/
  | tileStart (o : CoreRef)
  /-- MIGRATE_MOVE (R119) -/
  | migrateMove (o : Fin 2)
  /-- MIGRATE_PROTECT (R119) -/
  | migrateProtect (o : Fin 2)
  /-- MIGRATE_REPLICATE (R118) -/
  | migrateReplicate (o : Fin 2)
  /-- RESET_COMPLETE_EVENT (R81) -/
  | resetCompleteEvent (o : Fin 16)
  /-- DIE_RESET_COMPLETE (R407) -/
  | dieResetComplete (o : Fin 14)
  /-- CLAUSE_HEADER (R132) -/
  | clauseHeader (o : HeaderArgs)
  /-- ADD_I32 (R199) -/
  | addI32 (o : LaneR)
  /-- ADD_I32_IMM (R199) -/
  | addI32Imm (o : LaneI)
  /-- SUB_I32 (R199) -/
  | subI32 (o : LaneR)
  /-- SUB_I32_IMM (R199) -/
  | subI32Imm (o : LaneI)
  /-- MUL_I32 (R199) -/
  | mulI32 (o : LaneR)
  /-- MUL_I32_IMM (R199) -/
  | mulI32Imm (o : LaneI)
  /-- MULHI_I32 (R199) -/
  | mulhiI32 (o : LaneR)
  /-- MULHI_I32_IMM (R199) -/
  | mulhiI32Imm (o : LaneI)
  /-- MULHI_N32 (R199) -/
  | mulhiN32 (o : LaneR)
  /-- MULHI_N32_IMM (R199) -/
  | mulhiN32Imm (o : LaneI)
  /-- MIN_I32 (R199) -/
  | minI32 (o : LaneR)
  /-- MIN_I32_IMM (R199) -/
  | minI32Imm (o : LaneI)
  /-- MAX_I32 (R199) -/
  | maxI32 (o : LaneR)
  /-- MAX_I32_IMM (R199) -/
  | maxI32Imm (o : LaneI)
  /-- MIN_N32 (R199) -/
  | minN32 (o : LaneR)
  /-- MIN_N32_IMM (R199) -/
  | minN32Imm (o : LaneI)
  /-- MAX_N32 (R199) -/
  | maxN32 (o : LaneR)
  /-- MAX_N32_IMM (R199) -/
  | maxN32Imm (o : LaneI)
  /-- AND (R200) -/
  | and (o : LaneR)
  /-- AND_IMM (R200) -/
  | andImm (o : LaneI)
  /-- OR (R200) -/
  | or (o : LaneR)
  /-- OR_IMM (R200) -/
  | orImm (o : LaneI)
  /-- XOR (R200) -/
  | xor (o : LaneR)
  /-- XOR_IMM (R200) -/
  | xorImm (o : LaneI)
  /-- ANDN (R200) -/
  | andn (o : LaneR)
  /-- ANDN_IMM (R200) -/
  | andnImm (o : LaneI)
  /-- SHL (R200) -/
  | shl (o : LaneR)
  /-- SHL_IMM (R200) -/
  | shlImm (o : LaneI)
  /-- SHR_N32 (R200) -/
  | shrN32 (o : LaneR)
  /-- SHR_N32_IMM (R200) -/
  | shrN32Imm (o : LaneI)
  /-- SHR_I32 (R200) -/
  | shrI32 (o : LaneR)
  /-- SHR_I32_IMM (R200) -/
  | shrI32Imm (o : LaneI)
  /-- ROL (R200) -/
  | rol (o : LaneR)
  /-- ROL_IMM (R200) -/
  | rolImm (o : LaneI)
  /-- POPC (R200) -/
  | popc (o : LaneU)
  /-- CLZ (R200) -/
  | clz (o : LaneU)
  /-- BREV (R200) -/
  | brev (o : LaneU)
  /-- MOV (R201) -/
  | mov (o : LaneU)
  /-- MOV_IMM (R201) -/
  | movImm (o : LaneM)
  /-- ABS_I32 (R201) -/
  | absI32 (o : LaneU)
  /-- NEG_I32 (R201) -/
  | negI32 (o : LaneU)
  /-- SETEQ_I32 (R202) -/
  | seteqI32 (o : CmpR)
  /-- SETEQ_I32_IMM (R202) -/
  | seteqI32Imm (o : CmpI)
  /-- SETNE_I32 (R202) -/
  | setneI32 (o : CmpR)
  /-- SETNE_I32_IMM (R202) -/
  | setneI32Imm (o : CmpI)
  /-- SETLT_I32 (R202) -/
  | setltI32 (o : CmpR)
  /-- SETLT_I32_IMM (R202) -/
  | setltI32Imm (o : CmpI)
  /-- SETLE_I32 (R202) -/
  | setleI32 (o : CmpR)
  /-- SETLE_I32_IMM (R202) -/
  | setleI32Imm (o : CmpI)
  /-- SETLT_N32 (R202) -/
  | setltN32 (o : CmpR)
  /-- SETLT_N32_IMM (R202) -/
  | setltN32Imm (o : CmpI)
  /-- SETLE_N32 (R202) -/
  | setleN32 (o : CmpR)
  /-- SETLE_N32_IMM (R202) -/
  | setleN32Imm (o : CmpI)
  /-- SETGT_I32 (R202) -/
  | setgtI32 (o : CmpR)
  /-- SETGT_I32_IMM (R202) -/
  | setgtI32Imm (o : CmpI)
  /-- SETGT_N32 (R202) -/
  | setgtN32 (o : CmpR)
  /-- SETGT_N32_IMM (R202) -/
  | setgtN32Imm (o : CmpI)
  /-- PMOV (R203) -/
  | pmov (o : PredU)
  /-- PNOT (R203) -/
  | pnot (o : PredU)
  /-- PAND (R203) -/
  | pand (o : PredB)
  /-- POR (R203) -/
  | por (o : PredB)
  /-- PXOR (R203) -/
  | pxor (o : PredB)
  /-- PTOI (R203) -/
  | ptoi (o : PredI)
  /-- LID (R204) -/
  | lid (o : LidArgs)
  /-- ADD_TYPED (R205) -/
  | addTyped (o : TypedB)
  /-- SUB_TYPED (R205) -/
  | subTyped (o : TypedB)
  /-- MUL_TYPED (R205) -/
  | mulTyped (o : TypedB)
  /-- MAD (R205) -/
  | mad (o : TypedC)
  /-- MIN_TYPED (R206) -/
  | minTyped (o : TypedP)
  /-- MAX_TYPED (R206) -/
  | maxTyped (o : TypedP)
  /-- SETCC (R207) -/
  | setcc (o : SetccArgs)
  /-- SHL_TYPED (R208) -/
  | shlTyped (o : TypedP)
  /-- SHR_TYPED (R208) -/
  | shrTyped (o : TypedP)
  /-- NEG_TYPED (R209) -/
  | negTyped (o : TypedS)
  /-- ABS_TYPED (R209) -/
  | absTyped (o : TypedS)
  /-- DIV (R210) -/
  | div (o : TypedB)
  /-- SQRT (R210) -/
  | sqrt (o : TypedQ)
  /-- CVT (R211) -/
  | cvt (o : CvtArgs)
  /-- RNDI (R212) -/
  | rndi (o : TypedN)
  /-- FCLASS (R213) -/
  | fclass (o : TypedU)
  /-- SIN (R214) -/
  | sin (o : TypedU)
  /-- COS (R214) -/
  | cos (o : TypedU)
  /-- RCP (R214) -/
  | rcp (o : TypedU)
  /-- RSQ (R214) -/
  | rsq (o : TypedU)
  /-- EXP2 (R214) -/
  | exp2 (o : TypedU)
  /-- LOG2 (R214) -/
  | log2 (o : TypedU)
  /-- DP4 (R216) -/
  | dp4 (o : Dp4Args)
  /-- SHFL (R218) -/
  | shfl (o : LaneR)
  /-- SWAP (R219) -/
  | swap (o : SwapArgs)
  /-- BCAST (R220) -/
  | bcast (o : LaneR)
  /-- BCAST_IMM (R220) -/
  | bcastImm (o : LaneI)
  /-- ROT (R220) -/
  | rot (o : LaneR)
  /-- ROT_IMM (R220) -/
  | rotImm (o : LaneI)
  /-- PRMT (R221) -/
  | prmt (o : PrmtArgs)
  /-- PACK (R222) -/
  | pack (o : LaneR)
  /-- LD (R277) -/
  | ld (o : LdArgs)
  /-- ST (R277) -/
  | st (o : StArgs)
  /-- ATOM (R279) -/
  | atom (o : AtomArgs)
  /-- CAS (R281) -/
  | cas (o : CasArgs)
  /-- DEPOSIT (R298) -/
  | deposit (o : DepositArgs)
  /-- MMA (R326) -/
  | mma (o : MmaArgs)
  /-- MMV (R328) -/
  | mmv (o : MmvArgs)
  /-- MMAS (R327) -/
  | mmas (o : MmaArgs)
  /-- SMOV_I32 (R226) -/
  | smovI32 (o : SclU)
  /-- SMOV_I32_IMM (R226) -/
  | smovI32Imm (o : SclM)
  /-- SADD_I32 (R226) -/
  | saddI32 (o : SclR)
  /-- SADD_I32_IMM (R226) -/
  | saddI32Imm (o : SclI)
  /-- SSUB_I32 (R226) -/
  | ssubI32 (o : SclR)
  /-- SSUB_I32_IMM (R226) -/
  | ssubI32Imm (o : SclI)
  /-- SMUL_I32 (R226) -/
  | smulI32 (o : SclR)
  /-- SMUL_I32_IMM (R226) -/
  | smulI32Imm (o : SclI)
  /-- SMULHI_I32 (R226) -/
  | smulhiI32 (o : SclR)
  /-- SMULHI_I32_IMM (R226) -/
  | smulhiI32Imm (o : SclI)
  /-- SMULHI_N32 (R226) -/
  | smulhiN32 (o : SclR)
  /-- SMULHI_N32_IMM (R226) -/
  | smulhiN32Imm (o : SclI)
  /-- SMIN_I32 (R226) -/
  | sminI32 (o : SclR)
  /-- SMIN_I32_IMM (R226) -/
  | sminI32Imm (o : SclI)
  /-- SMAX_I32 (R226) -/
  | smaxI32 (o : SclR)
  /-- SMAX_I32_IMM (R226) -/
  | smaxI32Imm (o : SclI)
  /-- SSHL (R226) -/
  | sshl (o : SclR)
  /-- SSHL_IMM (R226) -/
  | sshlImm (o : SclI)
  /-- SSHR_N32 (R226) -/
  | sshrN32 (o : SclR)
  /-- SSHR_N32_IMM (R10) -/
  | sshrN32Imm (o : SclI)
  /-- SSHR_I32 (R226) -/
  | sshrI32 (o : SclR)
  /-- SSHR_I32_IMM (R226) -/
  | sshrI32Imm (o : SclI)
  /-- SAND (R226) -/
  | sand (o : SclR)
  /-- SAND_IMM (R226) -/
  | sandImm (o : SclI)
  /-- SOR (R226) -/
  | sor (o : SclR)
  /-- SOR_IMM (R226) -/
  | sorImm (o : SclI)
  /-- SXOR (R226) -/
  | sxor (o : SclR)
  /-- SXOR_IMM (R226) -/
  | sxorImm (o : SclI)
  /-- SANDN (R226) -/
  | sandn (o : SclR)
  /-- SANDN_IMM (R226) -/
  | sandnImm (o : SclI)
  /-- SMIN_N32 (R226) -/
  | sminN32 (o : SclR)
  /-- SMIN_N32_IMM (R226) -/
  | sminN32Imm (o : SclI)
  /-- SMAX_N32 (R226) -/
  | smaxN32 (o : SclR)
  /-- SMAX_N32_IMM (R226) -/
  | smaxN32Imm (o : SclI)
  /-- SPOPC (R226) -/
  | spopc (o : SclU)
  /-- SCLZ (R226) -/
  | sclz (o : SclU)
  /-- SCMP_I32 (R226) -/
  | scmpI32 (o : ScmpR)
  /-- SCMP_I32_IMM (R226) -/
  | scmpI32Imm (o : ScmpI)
  /-- SMOV_I64 (R227) -/
  | smovI64 (o : SclU)
  /-- SMOV_I64_IMM (R227) -/
  | smovI64Imm (o : SclM)
  /-- SADD_I64 (R227) -/
  | saddI64 (o : SclR)
  /-- SADD_I64_IMM (R227) -/
  | saddI64Imm (o : SclI)
  /-- SSUB_I64 (R227) -/
  | ssubI64 (o : SclR)
  /-- SSUB_I64_IMM (R227) -/
  | ssubI64Imm (o : SclI)
  /-- SMUL_I64 (R227) -/
  | smulI64 (o : SclR)
  /-- SMUL_I64_IMM (R227) -/
  | smulI64Imm (o : SclI)
  /-- SSHL_N64 (R227) -/
  | sshlN64 (o : SclR)
  /-- SSHL_N64_IMM (R227) -/
  | sshlN64Imm (o : SclI)
  /-- SSHR_N64 (R227) -/
  | sshrN64 (o : SclR)
  /-- SSHR_N64_IMM (R227) -/
  | sshrN64Imm (o : SclI)
  /-- SCMP_I64 (R227) -/
  | scmpI64 (o : ScmpR)
  /-- BRA (R228) -/
  | bra (o : BraArgs)
  /-- CALL (R230) -/
  | call (o : CallArgs)
  /-- RET (R231) -/
  | ret (o : SReg)
  /-- JOIN (R233) -/
  | join (o : SReg)
  /-- MSPLIT (R233) -/
  | msplit (o : MsplitArgs)
  /-- MELSE (R233) -/
  | melse (o : SReg)
  /-- SPLANE (R234) -/
  | splane (o : SReg)
  /-- SMODE_RD (R237) -/
  | smodeRd (o : SReg)
  /-- SMODE_WR (R237) -/
  | smodeWr (o : SReg)
  /-- SMODE_CLR (R237) -/
  | smodeClr (o : SReg)
  /-- SMODE_RM (R237) -/
  | smodeRm (o : SReg)
  /-- SID (R238) -/
  | sid (o : SidArgs)
  /-- LDARG (R239) -/
  | ldarg (o : LdargArgs)
  /-- SIGCHK (R241) -/
  | sigchk (o : Word)
  /-- TRAP (R243) -/
  | trap (o : BitVec 16)
  /-- MARK (R245) -/
  | mark (o : Word)
  /-- PATCHREQ (R248) -/
  | patchreq (o : SReg)
  /-- TCLK (R249) -/
  | tclk (o : SReg)
  /-- SYSRD (R251) -/
  | sysrd (o : SclU)
  /-- SYSWR (R251) -/
  | syswr (o : SclU)
  /-- SLD (R278) -/
  | sld (o : SldArgs)
  /-- SST (R278) -/
  | sst (o : SstArgs)
  /-- SATOM (R279) -/
  | satom (o : SatomArgs)
  /-- SCAS (R281) -/
  | scas (o : ScasArgs)
  /-- FENCE (R282) -/
  | fence (o : FenceArgs)
  /-- WAITP (R283) -/
  | waitp (o : WaitpArgs)
  /-- WAITV (R284) -/
  | waitv (o : WaitvArgs)
  /-- WAITVM (R284) -/
  | waitvm (o : WaitvmArgs)
  /-- BAR (R286) -/
  | bar (o : BarArgs)
  /-- CPIN (R290) -/
  | cpin (o : SclR)
  /-- CPOUT (R290) -/
  | cpout (o : SclR)
  /-- GATHER (R292) -/
  | gather (o : GatherArgs)
  /-- XPAND (R293) -/
  | xpand (o : XpandArgs)
  /-- RCOPY (R295) -/
  | rcopy (o : RputArgs)
  /-- PUT (R297) -/
  | put (o : RputArgs)
  /-- STREAM (R294) -/
  | stream (o : SReg)
  /-- VATSET (R303) -/
  | vatset (o : SReg)
  /-- RELAUNCH (R299) -/
  | relaunch (o : SReg)
  /-- BULK_DATA_INGRESS (R69) -/
  | bulkDataIngress (o : BulkData)
  /-- SPILL_FILL_COMPLETE (R232) -/
  | spillFillComplete (o : GangRef)
  /-- LATE_SOURCE_READ (R132) -/
  | lateSourceRead (o : OpRef)
  /-- PATCH_VERSIONED (R139) -/
  | patchVersioned
  /-- PATCH_IN_PLACE (R140) -/
  | patchInPlace
  /-- ACCESS_CONTROL_ENTRY_WRITE (R71) -/
  | accessControlEntryWrite
  /-- PARTITION_DESCRIPTOR_WRITE (R73) -/
  | partitionDescriptorWrite
  /-- PARTITION_CONTROL_WRITE (R247) -/
  | partitionControlWrite
  /-- SCRATCHPAD_ALLOCATION_WRITE (R103) -/
  | scratchpadAllocationWrite
  /-- ROOT_TABLE_WRITE (R104) -/
  | rootTableWrite
  /-- KEY_SLOT_LOAD (R405) -/
  | keySlotLoad
  /-- FAULT_RING_WRITE (R349) -/
  | faultRingWrite
  /-- TRACE_RING_WRITE (R393) -/
  | traceRingWrite
  /-- SWAP_POLICY_SET (R99) -/
  | swapPolicySet
  /-- CORE_RETIRE_GRANT_SET (R251) -/
  | coreRetireGrantSet
  /-- INVALIDATE_RANGE (R108) -/
  | invalidateRange
  /-- PARTITION_RESET (R81) -/
  | partitionReset
  /-- DIE_RESET (R407) -/
  | dieReset
  /-- CLUSTER_REBUILD (R367) -/
  | clusterRebuild
  /-- CLUSTER_RELEASE (R367) -/
  | clusterRelease
  /-- DEBUG_RESUME (R369) -/
  | debugResume
  /-- DEBUG_STEP (R369) -/
  | debugStep
  /-- DEBUG_TERMINATE (R369) -/
  | debugTerminate
  /-- PATCH_SUBMIT (R138) -/
  | patchSubmit
  /-- POWER_LIMIT_SET (R404) -/
  | powerLimitSet
  /-- COUNTER_READ (R406) -/
  | counterRead
  /-- ATTESTATION_REPORT (R403) -/
  | attestationReport
  /-- THERMAL_RESUME (R26) -/
  | thermalResume
  /-- JOURNAL_CLEAR (R401) -/
  | journalClear
  /-- OWNER_ENDPOINT_CHANGE (R405) -/
  | ownerEndpointChange
  /-- DIE_OUT_OF_SERVICE (R27) -/
  | dieOutOfService
  /-- MIGRATION_SUBMIT (R118) -/
  | migrationSubmit
  /-- SPLINTER_POOL_SET (R116) -/
  | splinterPoolSet
  /-- SWAP_POOL_SET (R100) -/
  | swapPoolSet
  /-- UNKNOWN_OP (R405) -/
  | unknownOp
  /-- REGANG (R185) -/
  | regang
  /-- YIELD (R235) -/
  | yield
  /-- EXIT (R236) -/
  | exit
  /-- IENTER (R242) -/
  | ienter
  /-- BRK (R244) -/
  | brk
  /-- POWER_LOSS (R401) -/
  | powerLoss
  deriving DecidableEq, Repr

end Sys2Proof
end

