-- ==== Sys2Proof/Machine/State.lean ====
section
/-! DEFINITION. Everything the spec gives the machine, as plain data, and the machine right after reset. The types stand
in the order package, dies, tiles, code, launches, teams, groups, slices, lanes, from the inside out. Fields that are
the model's own (agenda, cur, mgmt, the counters that give names) say so. -/

namespace Sys2Proof.Machine

/-! Faults and refusals of a step. -/

/-- Why a step of the model stops. -/
inductive Fault where
  /-- The package has no power and the turn is not POWER_ON; raised by step. The spec gives a package without power no
  step but bring-up (R400). Safe. -/
  | poweredOff
  deriving DecidableEq, Repr

/-- Why the model gives an instruction no meaning. -/
inductive Refusal where
  /-- An instruction whose meaning is not written yet; raised by its arm of exec. Safe. -/
  | notModelled (mnemonic : String)
  deriving DecidableEq, Repr

/-! Memory. -/

/-- Bytes by address, addresses strictly rising, no entry 0; an unlisted address reads 0 (log 4). -/
structure Memory where
  cells : List Host.Cell := []
  deriving DecidableEq, Repr

/-- A key slot's 64 bytes (R111, R405 op 0x06). -/
abbrev Key := BitVec 512

/-! Places of bytes (R101, R109, R253). -/

inductive Space where
  | shared | stack | scratch | global | nowhere
  deriving DecidableEq, Repr

/-- Where a global address leads: die, local offset, key, the bytes of the page from there on, its leaf and the log2 of the
page's size. -/
structure Target where
  va : Nat
  die : Nat
  off : Nat
  key : Option Key
  left : Nat
  leaf : DWord
  bits : Nat
  deriving DecidableEq, Repr

/-- A place that an access has been translated to: an on-chip space of its group, with the offset there, or main memory. -/
inductive Spot where
  | chip (sp : Space) (off : Nat)
  | main (t : Target)
  deriving DecidableEq, Repr

/-- How a walk ends short of a target (R107). -/
inductive WalkFault where
  | page
  | format (level : Nat)
  | key
  | permission
  | writeProtection
  /-- order 7, state collapsing or migrating -/
  | parked
  /-- order 7, a write to a replicated page (R112) -/
  | collapse
  deriving DecidableEq, Repr

/-! Faults of a program (R352). -/

inductive FaultClass where
  | illegalInstruction | illegalEncoding | unimplementedGeneration | unimplementedCombination | privilege | dependence
  | planeAlignment | branchTarget | link | spillOverflow | codeIntegrity | modeValue | address | apertureBound
  | accessPath | alignment | page | translationFormat | key | permission | writeProtection | remoteBound | putTarget
  | copyOperand | scaleLayout | pressedBlock | vat | matrixOperand | stream | powerBudget | barrier | curdOverflow
  | permuteSource | poison | signature | programTrap | systemRegister | debugStop | clusterCheck
  deriving DecidableEq, Repr

/-- What a fault says of itself: class, reason and detail (R350). -/
structure FaultInfo where
  cls : FaultClass
  reason : Nat := 0
  detail : DWord := 0
  deriving DecidableEq, Repr

/-- The part of a fault record that a slice decides (R350); the rest comes from its team when the record is written. -/
structure Rec where
  fault : FaultInfo
  /-- bits of the flags byte: 0 deferred, 1 parked, 2 replayed, 3 held, 4 further lanes -/
  flags : BitVec 8 := 0
  group : BitVec 8 := 0
  slice : BitVec 8 := 0
  lane : BitVec 8 := 0xFF
  plane : BitVec 8 := 0
  offset : Word := 0
  word : Word := 0
  ext : Word := 0
  laneMask : Word := 0
  stop : Word := 0
  deriving DecidableEq, Repr

/-- How an engine's part of its work ends. -/
inductive Stop where
  | done
  | fault (f : FaultInfo)
  | park (va : Nat) (f : WalkFault)
  deriving DecidableEq, Repr

/-! Lanes, slices and groups (R84). -/

/-- A lane: its physical registers (R229; one bit of poison each, R360), its predicates, its plane number (R122). -/
structure Lane where
  v : Vector Word 256
  vp : BitVec 256
  p : BitVec 8
  pl : Fin 4
  deriving DecidableEq, Repr

/-- A register that carries marks: a physical lane register of the slice, or a scalar register (R133). -/
inductive MarkReg where
  | v (i : Nat)
  | s (i : SReg)
  deriving DecidableEq, Repr

/-- A pending (else held) mark, and the flag it was made under; none is cleared by no wait (R133). -/
structure Mark where
  reg : MarkReg
  pending : Bool
  flag : Option (Fin 12)
  deriving DecidableEq, Repr

/-- The clause that a slice has fetched: the offset of its header and, for each plane read, the words from the header on
(R124). A plane that was not read has no words; old holds the words that its copy had before an in-place patch, of which
patched counts those that the clause has outlived (R140). -/
structure ClauseBuf where
  base : Word
  planes : Vector (List Word) 4
  old : Vector (List Word) 4 := Vector.replicate 4 []
  patched : Nat := 0
  deriving DecidableEq, Repr

/-- What holds a slice (R183, R358, R368). -/
inductive Hold where
  | none
  /-- WAITP with its path and threshold -/
  | path (p : Path) (threshold : Nat)
  /-- an issue that would raise a path counter to 64 (R257) -/
  | pathFull (p : Path)
  /-- a value wait; masked says that it is WAITVM, else c is not read -/
  | value (masked : Bool) (o : WaitvmArgs)
  | barrier (o : BarArgs)
  /-- a matrix instruction -/
  | vat (i : Instr)
  | regang
  /-- a page fault at this address, or a collapse or migration of its page (R359, R107 order 7) -/
  | parked (va : DWord)
  /-- CALL or RET whose spills or fills have not completed (R232) -/
  | spilling
  /-- a request that comes after every older access of the group, or a read at issue, in a class, that some of them are
  ordered before (R248, R249, R267) -/
  | order (cls : Option Nat)
  /-- a replay that waits for pending marks to clear (R363) -/
  | replay
  deriving DecidableEq, Repr

/-- How the debugger holds a slice (R368, R369). -/
inductive Debug where
  | none
  /-- held by a BRK, a step or a trap of this class -/
  | held (cls : FaultClass)
  /-- stopped with its group -/
  | stopped
  /-- slice stop: stops before its next synchronisation -/
  | stopSoon
  /-- single step: stops again after one instruction -/
  | stepping
  /-- that instruction has issued and waits -/
  | stepped
  deriving DecidableEq, Repr

/-- The region-entry register ie (R225). -/
structure RegionEntry where
  valid : Bool := false
  window : BitVec 16 := 0
  mask : BitVec 4 := 0
  entry : Word := 0
  deriving DecidableEq, Repr

/-- A slice: four lanes and the state of R225, with what fetch, issue and faults keep of it. -/
structure Slice where
  num : Nat
  /-- pc offset (R122) -/
  offset : Word
  /-- the clause the offset lies in has started -/
  inClause : Bool
  cbuf : Option ClauseBuf
  /-- set fields of the current clause (R130) -/
  rflag : Option (Fin 12)
  sflag : Option (Fin 12)
  /-- yield hint of the current clause -/
  yieldHint : Fin 8
  s : Vector Word 64
  /-- poison of s0 to s63 (R360) -/
  sp : BitVec 64
  em : BitVec 4
  sg : Word
  ie : RegionEntry
  f : BitVec 12
  wb : Nat
  lo : Nat
  l0 : Lane
  l1 : Lane
  l2 : Lane
  l3 : Lane
  /-- plane numbers that take effect at the next clause start (R128) -/
  planeNext : Option (BitVec 8)
  marks : List Mark
  /-- the gang of the team that it belongs to (R175) -/
  gang : Nat
  exited : Bool
  hold : Hold
  /-- a read of its value wait is under way to another unit of the package (R285, R377) -/
  asked : Bool
  dbg : Debug
  /-- issues of the sub-core for which a yield still defers it (R182) -/
  defer : Nat
  /-- deferred set and the record of its first instruction (R355) -/
  deferred : BitVec 4
  dRec : Option Rec
  /-- the record was made by the instruction that is issuing -/
  dFresh : Bool
  /-- the set holds a fault of another class than poison (R362, R370) -/
  dOther : Bool
  replay : Fin 4
  /-- it has completed its part of the instruction at which others of its gang wait or are parked -/
  sdone : Bool
  deriving DecidableEq, Repr

/-- A write to a lane or scalar register that an operation has still to make. -/
inductive RegWrite where
  | lane (slice lane index : Nat) (value : Word) (poison : Bool)
  | scalar (slice : Nat) (reg : SReg) (value : Word) (poison : Bool)
  deriving DecidableEq, Repr

/-- What one access of a lane or slice does at its place (R277 to R281). -/
inductive MemAct where
  | load
  | store (bs : List (Byte × Bool))
  | atom (op : AtomOp) (rm : Nat) (b : Nat)
  | cas (compare value : Nat)
  deriving DecidableEq, Repr

/-- An access of one lane or slice that has passed its checks and is still to be performed (R255, R264): its place, type
and act, the registers that its value goes to, and whether its request is under way to another unit of the package. -/
structure Part where
  spot : Spot
  ty : ETy
  act : MemAct
  dst : List RegWrite
  sent : Bool := false
  deriving DecidableEq, Repr

/-- Where an engine's bytes come from: places still to be read, or bytes at hand. -/
inductive Source where
  | mem (ps : List (Spot × Nat))
  | data (bs : List (Byte × Bool))
  deriving DecidableEq, Repr

/-- The bytes that an engine still has to write within one 32-byte granule of its destination (R255, R259). -/
structure Chunk where
  dst : Spot
  n : Nat
  src : Source
  sent : Bool := false
  deriving DecidableEq, Repr

/-- A granule that an engine has read ahead of its use, or none while that read's request is under way (R270, R68). -/
structure Early where
  spot : Spot
  bytes : Option (List (Byte × Bool))
  deriving DecidableEq, Repr

/-- A bulk copy between main memory and an on-chip level (R259, R290), out to main memory or in from it; addresses are
generic. Bytes below next are translated, those below formed stand in chunks, held are the places of the others. -/
structure CopyJob where
  out : Bool
  dst : DWord
  src : DWord
  len : Nat
  next : Nat := 0
  formed : Nat := 0
  held : List (Spot × Nat) := []
  todo : List Chunk := []
  /-- how the copy ends once its chunks are moved, when a page has stopped it (R291) -/
  stop : Option Stop := none
  deriving DecidableEq, Repr

/-- A gather (R292), with the rows whose index is still to be read. -/
structure GatherJob where
  dst : DWord
  src : DWord
  index : DWord
  rows : Nat
  rowLen : Nat
  stride : Nat
  left : List Nat := List.range rows
  todo : List Chunk := []
  stop : Option Stop := none
  deriving DecidableEq, Repr

/-- XPAND with the rounding, saturation and flush bits read at issue (R293), and its chunks once the tile is decoded. -/
structure XpandJob where
  t : ETy
  rm : Nat
  sat : Bool
  ftz : Bool
  dst : DWord
  src : DWord
  tile : Nat
  scales : DWord
  todo : Option (List Chunk) := none
  deriving DecidableEq, Repr

/-- A remote copy or put whose source is still to be read (R256): where it lands, and the pieces left, as offset in the
source and length, each within one granule of the destination. -/
structure PutJob where
  landing : Nat
  src : DWord
  dst : Nat
  left : List (Nat × Nat)
  deriving DecidableEq, Repr

/-- The kind of a matrix instruction (R318). -/
inductive MatKind where
  | mma | mmas | mmv
  deriving DecidableEq, Repr

/-- A matrix operation that has passed its checks: the A rows read (by vat lane; MMV: the vectors), the accumulator rows
or registers, and its encoding facts (R315, R326 to R328). -/
structure MatJob where
  kind : MatKind
  members : List Nat
  typeA : ETy
  typeB : ETy
  blenA : Nat
  blenB : Nat
  scaleA : DWord
  scaleB : DWord
  addrB : DWord
  cols : Nat
  /-- active vat lanes -/
  active : List Nat
  /-- bytes of A by vat lane, or of each vector -/
  rows : List (Nat × List Byte)
  /-- accumulator row addresses by vat lane (MMA, MMAS) -/
  acc : List (Nat × DWord)
  /-- first accumulator register, and the window base of each slice (group, slice, base) (MMV) -/
  dst : LReg
  bases : List (Nat × Nat × Nat)
  /-- stream address and tile claimed (MMV) -/
  stream : DWord
  tile : Nat
  /-- the group and operation of the STREAM that it claims from (MMV) -/
  producer : Nat × Nat
  /-- granules of accumulator rows still to be written: a place in acc, and a granule of its row (MMA, MMAS) -/
  todo : List (Nat × Nat) := []
  deriving DecidableEq, Repr

/-- What an operation of a group still has to do. -/
inductive Job where
  /-- a variable-latency result (R193) -/
  | result (w : List RegWrite)
  /-- lane-class accesses of a slice: their order, those not yet performed, and the values of the others (R275) -/
  | access (ord : Order) (parts : List Part) (w : List RegWrite)
  | copy (j : CopyJob)
  | gather (j : GatherJob)
  | xpand (j : XpandJob)
  | rcopy (j : PutJob)
  | stream (addr : DWord)
  | matrix (j : MatJob)
  /-- this group's share in the matrix operation op of the vat's owning group -/
  | vatPart (owner op : Nat)
  /-- an order between older and younger accesses (R267 items 4 and 6); own limits it to those of its slice -/
  | fence (ord : Order) (classes : BitVec 6) (own : Bool)
  deriving DecidableEq, Repr

/-- An operation that a group has issued (R257, R374): its number in the order of issue, the slice and the instruction
that issued it, the flags that cover it, whether it has returned, and how it ended. -/
structure Op where
  id : Nat
  /-- the group's issue that made it; the slices whose later accesses follow it in group order; the operations that stand
  before it in group order and were not performed then (R264) -/
  seq : Nat
  after : BitVec 8
  prior : List Nat
  job : Job
  slice : Nat
  offset : Word
  word : Word
  ext : Word
  path : Option Path
  rflag : Option (Fin 12)
  sflag : Option (Fin 12)
  /-- late sources still to be read: their marks' flag is sflag (R132) -/
  lateRead : Bool
  returned : Bool
  fault : Option FaultInfo
  parked : Option DWord
  /-- the landing of a remote copy or put, until it has landed (R262, R263) -/
  landing : Option Nat
  /-- granules read ahead (R270) -/
  early : List Early
  deriving DecidableEq, Repr

/-- The keep latch (R318). -/
structure Keep where
  kind : MatKind
  typeA : ETy
  blenA : Nat
  groups : Nat
  vectors : Nat
  active : List Nat
  rows : List (Nat × List Byte)
  deriving DecidableEq, Repr

/-- A group-table entry's place (R87, R92, R180). -/
structure Place where
  sub : Fin 4
  entry : Nat
  base : Nat
  lanePos : Nat
  start : Nat
  deriving DecidableEq, Repr

/-- A group (R84). -/
structure Group where
  num : Nat
  consumer : Bool
  width : Nat
  budget : Nat
  place : Place
  mode : Word
  vat : BitVec 16
  slices : List Slice
  ops : List Op
  nextOp : Nat
  /-- instructions of its slices that have issued -/
  issued : Nat
  /-- returned operations that ended in a fault no WAITP has raised (R257) -/
  faulted : List Op
  stack : Memory
  stackPoison : List Nat
  keep : Option Keep
  /-- latch state that the group found at its issue of a matrix instruction (R318) -/
  keepSeen : Bool
  started : Bool
  /-- its trap has been taken (R353) -/
  trapped : Bool
  ended : Bool
  drained : Bool
  deriving DecidableEq, Repr

/-! Teams. -/

/-- A team barrier: phase count (0 when clear), groups that have arrived, time-out in microseconds (R286). -/
structure Barrier where
  count : Nat := 0
  arrived : List Nat := []
  timeout : BitVec 16 := 0
  deriving DecidableEq, Repr

/-- A decoded tile: block length, scale bytes by block, codes by block (R61 to R66). -/
structure PressedTile where
  len : Nat
  scales : List Nat
  codes : List (List Nat)
  deriving DecidableEq, Repr

/-- A bound weight stream (R319, R320). -/
structure Stream where
  addr : DWord
  group : Nat
  op : Nat
  region : DWord
  scales : DWord
  first : Nat
  count : Nat
  stride : Nat
  claimed : Nat
  /-- tiles read ahead of their delivery (R68) -/
  ahead : List PressedTile
  delivered : Nat
  fault : Option FaultInfo
  deriving DecidableEq, Repr

/-- A taken token: the owning group and the flags that its clause sets (R96). -/
structure Token where
  group : Nat
  rflag : Option (Fin 12)
  sflag : Option (Fin 12)
  deriving DecidableEq, Repr

/-- A resident or saved team (R84, R93, R95). -/
structure Team where
  uid : Nat
  launch : Nat
  partition : Fin 16
  die : Fin 8
  core : Nat
  lin : Nat
  x : Nat
  y : Nat
  z : Nat
  groups : List Group
  shared : Memory
  sharedPoison : List Nat
  barriers : Vector Barrier 16
  streams : List Stream
  tokens : List Token
  nextGang : Nat
  /-- its tile's clock is stopped for a save (R376) -/
  frozen : Bool
  deriving DecidableEq, Repr

/-! Launches and code. -/

/-- The kernel header of R34, decoded. -/
structure KHeader where
  kernel : Nat
  entry5 : Nat
  entry6 : Nat
  len5 : Nat
  len6 : Nat
  width : Nat
  producers : Nat
  consumers : Nat
  budgetP : Nat
  budgetC : Nat
  tokens : Nat
  planeMask : Nat
  stride : Nat
  dataReg : Fin 64
  gens : Nat
  sharedKiB : Nat
  spill : Nat
  argBytes : Nat
  flags : Nat
  deriving DecidableEq, Repr

/-- Sections of an installed object (R29). -/
structure Sections where
  size : Nat
  kernels : Nat
  kernelTable : Nat
  text5 : Nat
  size5 : Nat
  text6 : Nat
  size6 : Nat
  data : Nat
  dataSize : Nat
  hashes : Nat
  deriving DecidableEq, Repr

/-- A code version: the pages that the patch engine has given new frames, with their bytes, and their new digests
(R139). A page without an entry lies at the object's address. -/
structure Version where
  num : Word
  pages : List (Nat × List Byte)
  digests : List (Nat × BitVec 256)
  deriving DecidableEq, Repr

/-- An installed object (R79, R138). -/
structure CodeObject where
  /-- the model's own name of it -/
  uid : Nat
  partition : Fin 16
  addr : DWord
  sections : Sections
  current : Word
  versions : List Version
  deriving DecidableEq, Repr

/-- A verified text page of a die's text buffer (R135). -/
structure TextPage where
  object : Nat
  version : Word
  page : Nat
  bytes : List Byte
  deriving DecidableEq, Repr

/-- A record in a curd unit (R298). -/
structure Curd where
  launch : Nat
  key : BitVec 16
  payload : Vector Word 4
  deriving DecidableEq, Repr

/-- A packet in a launch queue, with the entry that admitted it (R75, R246). -/
structure Queued where
  bytes : List Byte
  install : Bool
  aclM : Bool
  deriving DecidableEq, Repr

/-- A launch bound to its code version (R78). -/
structure Launch where
  id : Nat
  num : Word
  partition : Fin 16
  queue : Option (Fin 16)
  tag : Word
  priority : Fin 4
  policy : BitVec 8
  privileged : Bool
  object : DWord
  /-- the installed object at that address, by the model's name -/
  code : Nat
  version : Word
  sections : Sections
  header : KHeader
  dimX : Nat
  dimY : Nat
  dimZ : Nat
  /-- the 64 argument bytes as words -/
  args : Vector Word 16
  placed : Nat
  exited : Nat
  /-- a trap has terminated one of its groups (R353); a die reset has ended its groups (R407) -/
  failed : Bool
  dieReset : Bool
  /-- class and address of its first fault record (R353) -/
  first : Option (BitVec 8 × DWord)
  /-- the packet that a RELAUNCH registered (R299) -/
  registered : Option (List Byte)
  /-- a continuation's die, and its groups' records (R391) -/
  die : Option (Fin 8)
  groups : List (List Curd)
  deriving DecidableEq, Repr

/-- A continuation that waits for dispatch (R78, R391). -/
structure Continuation where
  partition : Fin 16
  die : Fin 8
  launch : Nat
  packet : List Byte
  privileged : Bool
  deriving DecidableEq, Repr

/-- A remote copy or put between its issue and its landing (R262, R263). -/
structure Landing where
  id : Nat
  put : Bool
  launch : Nat
  partition : Fin 16
  srcDie : Fin 8
  dstDie : Fin 8
  /-- incarnation of the destination when it was sent (R381) -/
  inc : BitVec 8
  /-- target team of a put to shared memory -/
  team : Option Nat
  /-- the sending team and group; a release also orders their earlier landings before it (R262, R263) -/
  fromTeam : Nat
  fromGroup : Nat
  rel : Bool
  /-- landings of its sender that are ordered before it (R262, R263, R267) -/
  after : List Nat
  /-- its whole source has been read -/
  filled : Bool
  /-- bytes read and not landed: offset in the target, each byte with its poison -/
  parts : List (Nat × List (Byte × Bool))
  /-- barrier object or counter -/
  object : Nat
  /-- its target tile has admitted it (R376) -/
  admitted : Bool
  /-- held while its target team is saved (R376) -/
  held : Bool
  deriving DecidableEq, Repr

/-! Events and management. -/

/-- A 32-byte event message (R80). -/
structure Event where
  code : BitVec 16
  partition : BitVec 8
  reason : BitVec 8
  tag : Word
  detail : DWord
  counter : BitVec 48
  lost : BitVec 16
  deriving DecidableEq, Repr

/-- A message on its way out: the endpoint it is for, and for an answer the port whose session carried its command (R80,
R405). -/
structure Outgoing where
  dest : Word
  session : Option (Fin 18)
  event : Event
  deriving DecidableEq, Repr

/-- A migration command (R118). -/
structure MigCmd where
  op : Nat
  partition : Nat
  target : Nat
  permissions : Nat
  start : DWord
  length : DWord
  dest : DWord
  completion : DWord
  reserved : DWord
  deriving DecidableEq, Repr

/-- A patch request in order of arrival (R138, R248); die is the requester's for a PATCHREQ. -/
structure PatchReq where
  partition : Fin 16
  die : Fin 14
  /-- address of the descriptor, whose status word the engine writes -/
  desc : DWord
  object : DWord
  offset : Nat
  length : Nat
  source : DWord
  flags : Nat
  reserved : Nat
  deriving DecidableEq, Repr

/-- A tile command (R249) with its issuing partition and tile. -/
structure TileCmd where
  partition : Fin 16
  fromDie : Fin 8
  fromCore : Nat
  op : Nat
  abort : Nat
  image : DWord
  completion : DWord
  duration : Nat
  expected : Word
  reservedOk : Bool
  deriving DecidableEq, Repr

/-- An entry of the whey buffer, in order of arrival (R377): the values of an access; a value wait's value, with its register
writes; a granule for an engine to write; a granule read ahead; or a put. -/
inductive Whey where
  | value (team group op : Nat) (w : List RegWrite)
  | wait (team group slice : Nat) (v : Nat) (w : List RegWrite)
  | granule (team group op : Nat) (c : Chunk)
  | ahead (team group op : Nat) (e : Early)
  | put (landing : Nat)
  deriving DecidableEq, Repr

/-- A tile whose clock is stopped for TCLK op 1: requests outstanding at the stop, whey, lost and stale counts, and the
counter then (R373, R376). -/
structure Save where
  outstanding : Nat
  whey : List Whey
  lost : Nat
  stale : Nat
  counter : BitVec 48
  deriving DecidableEq, Repr

/-- What a tile does besides running its teams (R376, R383, R384). -/
inductive TileState where
  | open
  | held
  | saving (v : Save)
  | draining
  | testing
  deriving DecidableEq, Repr

structure Tile where
  die : Fin 8
  core : Nat
  state : TileState
  cmds : List TileCmd
  /-- the groups that waited, as team and number, when an all-waiting report was sent, until one issues again (R99) -/
  reported : List (Nat × Nat)
  /-- that report may still lead to a swap -/
  pending : Bool
  deriving DecidableEq, Repr

/-- A sub-core's issue state (R180): issues, turn pointer, next start number, and a round-robin turn that is due. -/
structure SubCore where
  die : Fin 8
  core : Nat
  sub : Fin 4
  n : Nat
  ptr : Nat × Nat
  nextStart : Nat
  due : Bool
  deriving DecidableEq, Repr

/-- A drained cluster (R366). -/
structure Drained where
  die : Fin 8
  cluster : Nat
  /-- the group tables cannot be rebuilt (R367) -/
  inconsistent : Bool
  /-- address of each partition's record, 0 when it was not written (R366, R367) -/
  records : List (Fin 16 × DWord)
  deriving DecidableEq, Repr

/-- A saved team or tile: the facts that its scan-state bits stand for (R373, R374). -/
structure Image where
  partition : Fin 16
  /-- address in the partition's global window -/
  addr : DWord
  /-- swap-pool slot of a swapped team -/
  slot : Option Nat
  digest : BitVec 256
  generation : Nat
  revision : BitVec 8
  counter : BitVec 48
  teams : List (Team × BitVec 4)
  subs : List SubCore
  /-- its teams are away: it has not been restored (log 23) -/
  live : Bool
  deriving DecidableEq, Repr

/-- Block shared memory as an exited team has left it on its core, until a team is placed there (R95, R398). -/
structure Residue where
  die : Fin 8
  core : Nat
  launch : Nat
  lin : Nat
  shared : Memory
  poison : List Nat
  deriving DecidableEq, Repr

/-- A cached translation: a leaf that a die holds (R108). -/
structure Cached where
  die : Fin 14
  partition : Fin 16
  /-- first global address of its page, and the log2 of the page's size -/
  va : Nat
  bits : Nat
  leaf : DWord
  deriving DecidableEq, Repr

/-- A response still under way to a team that a partition or die reset has removed, to an operation or a slice's value wait, with
the epoch and the incarnation that its request carried (R81, R381). -/
structure Orphan where
  team : Nat
  group : Nat
  op : Nat
  partition : Fin 16
  epoch : BitVec 4
  die : Fin 8
  core : Nat
  inc : BitVec 8
  deriving DecidableEq, Repr

structure JournalEntry where
  start : Word
  step : BitVec 8
  die : BitVec 8
  outcome : BitVec 8
  method : BitVec 8
  detail : DWord
  deriving DecidableEq, Repr

/-! Partitions and dies. -/

structure Partition where
  descriptor : DWord
  queues : Vector (List Queued) 16
  /-- queue of far dies 12 and 13, as 0 to 7, whose turn comes next at dispatch, and at the placing of teams (R78, R94) -/
  served : Vector Nat 2
  placing : Vector Nat 2
  events : List Outgoing
  lost : BitVec 16
  epoch : BitVec 4
  resetting : Bool
  /-- events generated before the reset that are not delivered yet, and the packets it discarded (R81) -/
  resetWait : Nat
  resetCount : Nat
  launchNum : Word
  swapPolicy : BitVec 8
  swapInterval : DWord
  poolBase : DWord
  poolSlots : Nat
  root : DWord
  splinter : List DWord
  faultRing : DWord
  faultSeq : Word
  traceRing : DWord
  traceSeq : Word
  /-- scratchpad allocation on each compute die (R103) -/
  scratch : Vector DWord 8
  /-- counters 0x03, 0x04, 0x05, 0x06, 0x08, 0x09, 0x0D, 0x0E of R406 -/
  cDiscarded : DWord
  cEpoch : DWord
  cWaiting : DWord
  cCollapse : DWord
  cCurd : DWord
  cReplay : DWord
  cDropped : DWord
  cRecords : DWord
  deriving DecidableEq, Repr

structure Die where
  counter : BitVec 48
  inc : BitVec 8
  live : Bool
  revision : BitVec 8
  /-- capability word of a compute die (R402) -/
  capability : Word
  coreMap : Vector DWord 3
  grant : Bool
  trace : DWord
  curd : List Curd
  text : List TextPage
  /-- a trip has lowered its clocks (R26) -/
  lowered : Bool
  /-- installed far memory in bytes, dies 12 and 13 (R109) -/
  farBytes : Nat
  /-- the command of a near or far die's reset that has begun (R407) -/
  resetting : Option MgmtCmd
  /-- requests that a near die has counted as local and as remote (R338) -/
  localReqs : Nat
  remoteReqs : Nat
  /-- counters 0x07, 0x0A, 0x0B, 0x0C of R406 -/
  cPuts : DWord
  cCorrected : DWord
  cUncorrected : DWord
  cStale : DWord
  deriving DecidableEq, Repr

/-! The model's schedule (log 1). -/

/-- What moves next. Only the rows of the opcode table that are steps of the package are events; another instruction in
an event changes nothing. -/
inductive Turn where
  | event (i : Instr)
  /-- an issue opportunity of a sub-core (R180) -/
  | issue (die : Fin 8) (core : Nat) (sub : Fin 4)
  /-- a management message that arrives (R405) -/
  | mgmt (c : MgmtCmd)
  /-- the controller carries out the oldest command that waits -/
  | command
  /-- an engine reads a granule ahead of its use; the request of an access, chunk or read goes out; so does a value
  wait's (R270, R285, R377) -/
  | early (op : OpRef) (a : DWord)
  | request (op : OpRef) (pick : Nat)
  | ask (team group slice : Nat)
  /-- a die caches, or forgets, a translation (R108) -/
  | cache (die : Fin 14) (partition : Fin 16) (va : DWord)
  | forget (die : Fin 14) (partition : Fin 16) (va : DWord)
  deriving DecidableEq, Repr

/-- The gang that is issuing (team 0: none), the plane of the pass, whether it is the instruction's first or last pass,
and the gang's groups before the first pass (R127). -/
structure Cur where
  team : Nat := 0
  gang : Nat := 0
  plane : Fin 4 := 0
  first : Bool := true
  last : Bool := true
  before : List Group := []
  deriving DecidableEq, Repr

structure State where
  powered : Bool
  acl : Vector DWord 256
  partitions : Vector Partition 16
  /-- partition control register (R247) -/
  control : DWord
  dies : Vector Die 14
  /-- counters 0x01 and 0x02 of R406 -/
  malformed : Vector DWord 18
  unmatched : DWord
  keys : Vector (Option Key) 256
  /-- scratchpads, HBM4E and far memory: byte address die × 2^48 + local offset -/
  mem : Memory
  /-- poisoned 32-byte granules of mem, by granule number (R360) -/
  poison : List Nat
  /-- key under which each written granule of HBM4E or far memory is encrypted (R111) -/
  tags : List (Nat × Key)
  tlb : List Cached
  objects : List CodeObject
  launches : List Launch
  continuations : List Continuation
  teams : List Team
  landings : List Landing
  orphans : List Orphan
  images : List Image
  residues : List Residue
  tiles : List Tile
  subs : List SubCore
  drained : List Drained
  /-- partition whose turn comes next at the launch units of far dies 12 and 13, at dispatch and at the placing of teams (R78,
  R94) -/
  served : Vector Nat 2
  placing : Vector Nat 2
  answers : List Outgoing
  /-- commands that wait while a near or far die resets (R405, R407) -/
  commands : List MgmtCmd
  powerLimit : Nat
  /-- a lowered budget has stopped admission until the tokens in use fall below it (R404) -/
  overBudget : Bool
  /-- the package's identity key, as a free value's number (R403) -/
  identity : Option Nat
  owner : Word
  journal : List JournalEntry
  starts : Word
  measured : List (BitVec 256)
  outOfService : BitVec 8
  /-- a thermal trip has stopped admission (R26) -/
  tripped : Bool
  commonLevel : Nat
  migrations : Vector (List MigCmd) 2
  patches : List PatchReq
  /-- pages whose collapse has begun (R113) -/
  collapsing : List (Fin 16 × DWord)
  /-- ranges of a partition's window, as start and length, whose parked accesses may replay (R359) -/
  replays : List (Fin 16 × Nat × Nat)
  /-- the model's own: what moves next, what is issuing, the management command being carried out -/
  agenda : List Turn
  cur : Cur
  mgmt : MgmtCmd
  /-- the model's own: event messages that have left the package -/
  wire : List Outgoing
  /-- the model's own: the next name of a team, a launch or landing, the next free value, and the turns that the machine
  has taken by itself -/
  nextUid : Nat
  nextId : Nat
  free : Nat
  rot : Nat
  deriving DecidableEq, Repr

/-! The machine right after reset: bring-up has passed step 0x06 on a package whose fourteen dies are live (R2, R400;
log 2). Registers without a reset value hold 0 (log 3). -/

/-- A partition in its reset state (R7, R400). -/
def Partition.reset : Partition :=
  { descriptor := 0, queues := Vector.replicate 16 [], served := Vector.replicate 2 0, placing := Vector.replicate 2 0, events := [], lost := 0, epoch := 0,
    resetting := false, resetWait := 0, resetCount := 0, launchNum := 0, swapPolicy := 0, swapInterval := 0, poolBase := 0,
    poolSlots := 0, root := 0, splinter := [], faultRing := 0, faultSeq := 0, traceRing := 0, traceSeq := 0,
    scratch := Vector.replicate 8 0, cDiscarded := 0, cEpoch := 0, cWaiting := 0, cCollapse := 0, cCurd := 0,
    cReplay := 0, cDropped := 0, cRecords := 0 }

/-- The die with the given core map, capability word and far memory. -/
def Die.fresh (map : Vector DWord 3) (capability : Word) (far : Nat) : Die :=
  { counter := 0, inc := 0, live := true, revision := 0, capability := capability, coreMap := map, grant := false,
    trace := 0, curd := [], text := [], lowered := false, farBytes := far, resetting := none,
    localReqs := 0, remoteReqs := 0, cPuts := 0, cCorrected := 0, cUncorrected := 0, cStale := 0 }

/-- All 160 cores and 16 segments of a Jenben 6 die (R14, R402). -/
def Die.jenben6 : Die := Die.fresh #v[0xFFFFFFFFFFFFFFFF, 0xFFFFFFFFFFFFFFFF, 0x00000000FFFFFFFF] 0x0006A010 0
/-- All 128 cores and 16 segments of a Jenben 5 die. -/
def Die.jenben5 : Die := Die.fresh #v[0xFFFFFFFFFFFFFFFF, 0xFFFFFFFFFFFFFFFF, 0] 0x00058010 0
def Die.near : Die := Die.fresh #v[0, 0, 0] 0 0
/-- A far die with all 4 TB of R21. -/
def Die.far : Die := Die.fresh #v[0, 0, 0] 0 4000000000000

def MgmtCmd.none : MgmtCmd :=
  { port := 0, source := 0, op := 0, partition := 0, die := 0, tag := 0, operand0 := 0, operand1 := 0, tail := [] }

def State.reset : State :=
  { powered := true, acl := Vector.replicate 256 0, partitions := Vector.replicate 16 Partition.reset, control := 0,
    dies := #v[Die.jenben6, Die.jenben6, Die.jenben6, Die.jenben6, Die.jenben5, Die.jenben5, Die.jenben5, Die.jenben5,
               Die.near, Die.near, Die.near, Die.near, Die.far, Die.far],
    malformed := Vector.replicate 18 0, unmatched := 0, keys := Vector.replicate 256 none, mem := {}, poison := [],
    tags := [], tlb := [], objects := [], launches := [], continuations := [], teams := [], landings := [],
    orphans := [], images := [], residues := [], tiles := [], subs := [], drained := [], served := Vector.replicate 2 0,
    placing := Vector.replicate 2 0, answers := [], commands := [],
    powerLimit := 6000, overBudget := false, identity := some 0, owner := 0, journal := [], starts := 0, measured := [],
    outOfService := 0, tripped := false, commonLevel := 5, migrations := Vector.replicate 2 [], patches := [],
    collapsing := [], replays := [], agenda := [], cur := {},
    mgmt := MgmtCmd.none, wire := [], nextUid := 1, nextId := 0, free := 1, rot := 0 }

end Sys2Proof.Machine
end

