-- ==== Sys2Proof/Machine/Memory.lean ====
section
/-! DEFINITION. Bits of words, little-endian bytes (R5), memory as a canonical list of cells, and sorted sets of granules. -/

namespace Sys2Proof.Machine

/-- Bits lo to lo + n - 1 of x as a number (R5). -/
def bits {w : Nat} (x : BitVec w) (lo n : Nat) : Nat := x.toNat / 2 ^ lo % 2 ^ n

/-- Bit i of x. -/
def bit {w : Nat} (x : BitVec w) (i : Nat) : Bool := x.getLsbD i

/-- x with bit i set to b. -/
def setBit {w : Nat} (x : BitVec w) (i : Nat) (b : Bool) : BitVec w :=
  if b then x ||| BitVec.ofNat w (2 ^ i) else x &&& ~~~ BitVec.ofNat w (2 ^ i)

/-- x with bits lo to lo + n - 1 set to v. -/
def setBits {w : Nat} (x : BitVec w) (lo n v : Nat) : BitVec w :=
  (x &&& ~~~ BitVec.ofNat w ((2 ^ n - 1) * 2 ^ lo)) ||| BitVec.ofNat w (v % 2 ^ n * 2 ^ lo)

/-- A number of n bits read as signed. -/
def signed (n x : Nat) : Int := if x % 2 ^ n < 2 ^ (n - 1) then (x % 2 ^ n : Nat) else (x % 2 ^ n : Nat) - (2 ^ n : Nat)

/-- The low n bits of an integer, as a number. -/
def wrapTo (n : Nat) (x : Int) : Nat := (x % (2 ^ n : Nat)).toNat

/-- Number of set bits of an n-bit number. -/
def popCount : Nat → Nat → Nat
  | 0, _ => 0
  | n + 1, x => x % 2 + popCount n (x / 2)

/-- Position of the highest set bit of x plus 1, looking at n bits; 0 when none is set. -/
def bitLen : Nat → Nat → Nat
  | 0, _ => 0
  | n + 1, x => if x / 2 ^ n % 2 = 1 then n + 1 else bitLen n x

/-- The bits of an n-bit number in reverse order. -/
def revBits : Nat → Nat → Nat
  | 0, _ => 0
  | n + 1, x => x % 2 * 2 ^ n + revBits n (x / 2)

/-- The low word of a 64-bit value, and the high word. -/
def lowWord (x : DWord) : Word := BitVec.ofNat 32 x.toNat
def highWord (x : DWord) : Word := BitVec.ofNat 32 (x.toNat / 2 ^ 32)
/-- The value of a pair, low word in the even register (R223). -/
def pairOf (lo hi : Word) : DWord := BitVec.ofNat 64 (lo.toNat + 2 ^ 32 * hi.toNat)

/-- The number that bytes stand for, little-endian. -/
def fromLE : List Byte → Nat
  | [] => 0
  | b :: r => b.toNat + 256 * fromLE r

/-- The n low bytes of a number, little-endian. -/
def toLE : Nat → Nat → List Byte
  | 0, _ => []
  | n + 1, x => BitVec.ofNat 8 x :: toLE n (x / 256)

/-- Bytes lo to lo + n - 1 of a list as a number; bytes past its end are 0. -/
def leAt (bs : List Byte) (lo n : Nat) : Nat := fromLE ((bs.drop lo).take n)

/-- v with f applied at index i, when i is in range. -/
def updV {α : Type} {n : Nat} (v : Vector α n) (i : Nat) (f : α → α) : Vector α n :=
  if h : i < n then v.set i (f v[i]) else v

/-- The element at index i, or d. -/
def atV {α : Type} {n : Nat} (v : Vector α n) (i : Nat) (d : α) : α := if h : i < n then v[i] else d

/-! Memory. -/

/-- What the cells read at an address: an unlisted address reads 0 (log 4). -/
def readCells : List Host.Cell → Nat → Byte
  | [], _ => 0
  | (b, x) :: r, a => if a = b then x else readCells r a

/-- The cells after a write, in the canonical form. -/
def writeCells : List Host.Cell → Nat → Byte → List Host.Cell
  | [], a, x => if x = 0 then [] else [(a, x)]
  | (b, y) :: r, a, x =>
    if a < b then (if x = 0 then (b, y) :: r else (a, x) :: (b, y) :: r)
    else if a = b then (if x = 0 then r else (a, x) :: r)
    else (b, y) :: writeCells r a x

/-- Addresses rise strictly and no listed byte is 0; lo is the least address allowed. -/
def wfCells : Nat → List Host.Cell → Bool
  | _, [] => true
  | lo, (a, x) :: r => decide (lo ≤ a) && x != 0 && wfCells (a + 1) r

def Memory.wf (m : Memory) : Bool := wfCells 0 m.cells

def Memory.get (m : Memory) (a : Nat) : Byte := readCells m.cells a
def Memory.set (m : Memory) (a : Nat) (x : Byte) : Memory := { cells := writeCells m.cells a x }

/-- n bytes from address a. -/
def Memory.read (m : Memory) (a : Nat) : Nat → List Byte
  | 0 => []
  | n + 1 => m.get a :: m.read (a + 1) n

def Memory.write (m : Memory) (a : Nat) : List Byte → Memory
  | [] => m
  | x :: r => (m.set a x).write (a + 1) r

/-- Memory with n bytes from address a zeroed: only listed bytes change. -/
def Memory.zero (m : Memory) (a n : Nat) : Memory :=
  { cells := m.cells.filter fun c => !(decide (a ≤ c.1) && decide (c.1 < a + n)) }

/-! Sorted sets of numbers (poisoned granules). -/

def insertNat : List Nat → Nat → List Nat
  | [], x => [x]
  | y :: r, x => if x < y then x :: y :: r else if x = y then y :: r else y :: insertNat r x

def removeNat (l : List Nat) (x : Nat) : List Nat := l.filter (· != x)

/-! Bytes that carry poison (R276, R360), in units of u bytes: 32 in the memories of R360, 4 in a spill stack (log 14). -/

/-- Poison after bytes are written at address a: a unit that receives a poisoned byte is poisoned, and one that is
covered whole by bytes without poison loses its poison. -/
def markUnits (u : Nat) (set : List Nat) (a : Nat) (bs : List (Byte × Bool)) : List Nat → List Nat
  | [] => set
  | g :: r =>
    let part := (bs.drop (u * g - a)).take (u * g + u - max a (u * g))
    let set' :=
      if part.any (·.2) then insertNat set g
      else if a ≤ u * g && u * g + u ≤ a + bs.length then removeNat set g
      else set
    markUnits u set' a bs r

/-- Units that n bytes from address a touch. -/
def units (u a n : Nat) : List Nat :=
  if n = 0 then [] else (List.range ((a + n - 1) / u - a / u + 1)).map (· + a / u)

def poisonUnits (u : Nat) (set : List Nat) (a : Nat) (bs : List (Byte × Bool)) : List Nat :=
  markUnits u set a bs (units u a bs.length)

/-- Bytes with the poison of their units. -/
def withUnits (u : Nat) (set : List Nat) (a : Nat) : List Byte → List (Byte × Bool)
  | [] => []
  | b :: r => (b, set.contains (a / u)) :: withUnits u set (a + 1) r

def granules (a n : Nat) : List Nat := units 32 a n
def poisonAfter (set : List Nat) (a : Nat) (bs : List (Byte × Bool)) : List Nat := poisonUnits 32 set a bs
def withPoison (set : List Nat) (a : Nat) (bs : List Byte) : List (Byte × Bool) := withUnits 32 set a bs

/-! The place of an address in main memory. -/

/-- Address of a byte in State.mem: the die's number and the local offset (R109, R111). -/
def mainAddr (die off : Nat) : Nat := die * 2 ^ 48 + off

end Sys2Proof.Machine
end

