-- ==== Sys2Proof/Machine/Hash.lean ====
section
/-! DEFINITION. SHA3-256 (FIPS 202), which page digests and image digests use (R30, R135, R373). -/

namespace Sys2Proof.Machine

/-- The state of Keccak: lane (x, y) is element x + 5 y. -/
abbrev Keccak := Vector DWord 25

/-- The round constants, by their bits at positions 2^j - 1 from a shift register (FIPS 202, 3.2.5). -/
def rcStep (r : Nat) : Nat := if r / 128 % 2 = 1 then (2 * r % 256) ^^^ 0x71 else 2 * r % 256

def rcBit (t : Nat) : Bool := ((List.range (t % 255)).foldl (fun r _ => rcStep r) 1) % 2 == 1

def roundConst (i : Nat) : DWord :=
  (List.range 7).foldl (fun c j => if rcBit (j + 7 * i) then c ||| BitVec.ofNat 64 (2 ^ (2 ^ j - 1)) else c) 0

/-- Rotation offsets of lane x + 5 y. -/
def rhoOffset : List Nat :=
  [0, 1, 62, 28, 27, 36, 44, 6, 55, 20, 3, 10, 43, 25, 39, 41, 45, 15, 21, 8, 18, 2, 61, 56, 14]

def laneAt (a : Keccak) (x y : Nat) : DWord := atV a (x % 5 + 5 * (y % 5)) 0

/-- theta. -/
def theta (a : Keccak) : Keccak :=
  let c := fun x => laneAt a x 0 ^^^ laneAt a x 1 ^^^ laneAt a x 2 ^^^ laneAt a x 3 ^^^ laneAt a x 4
  Vector.ofFn fun i => a[i] ^^^ c (i.val % 5 + 4) ^^^ (c (i.val % 5 + 1)).rotateLeft 1

/-- rho and pi: lane (x, y) goes to (y, 2x + 3y). -/
def rhoPi (a : Keccak) : Keccak :=
  Vector.ofFn fun i =>
    let u := i.val % 5
    let v := i.val / 5
    -- (u, v) = (y, 2x + 3y), so y = u and x = (v - 3u) / 2 mod 5 = 3 (v + 2u) mod 5
    let x := 3 * (v + 2 * u) % 5
    (laneAt a x u).rotateLeft (rhoOffset.getD (x + 5 * u) 0)

/-- chi. -/
def chi (a : Keccak) : Keccak :=
  Vector.ofFn fun i =>
    let x := i.val % 5
    let y := i.val / 5
    a[i] ^^^ (~~~ laneAt a (x + 1) y &&& laneAt a (x + 2) y)

def keccakRound (a : Keccak) (i : Nat) : Keccak := updV (chi (rhoPi (theta a))) 0 (· ^^^ roundConst i)

def keccakF (a : Keccak) : Keccak := (List.range 24).foldl keccakRound a

/-- One block of 136 bytes absorbed. -/
def absorb (a : Keccak) (block : List Byte) : Keccak :=
  keccakF (Vector.ofFn fun i => if i.val < 17 then a[i] ^^^ BitVec.ofNat 64 (leAt block (8 * i.val) 8) else a[i])

/-- The message with the domain bits and the padding, to a multiple of 136 bytes. -/
def sha3Pad (m : List Byte) : List Byte :=
  let k := 136 - m.length % 136
  m ++ (if k = 1 then [0x86] else (0x06 : Byte) :: List.replicate (k - 2) 0 ++ [0x80])

def absorbAll : Nat → Keccak → List Byte → Keccak
  | 0, a, _ => a
  | n + 1, a, m => absorbAll n (absorb a (m.take 136)) (m.drop 136)

/-- The digest as 32 bytes, read as a little-endian number. -/
def sha3 (m : List Byte) : BitVec 256 :=
  let p := sha3Pad m
  let a := absorbAll (p.length / 136) (Vector.replicate 25 0) p
  BitVec.ofNat 256 ((laneAt a 0 0).toNat + 2 ^ 64 * (laneAt a 1 0).toNat + 2 ^ 128 * (laneAt a 2 0).toNat + 2 ^ 192 * (laneAt a 3 0).toNat)

end Sys2Proof.Machine
end

