-- ==== Sys2Proof/Machine/Types.lean ====
section
/-! DEFINITION. What the codes of an instruction word mean and which operand forms each opcode accepts (R42, R49,
R144 to R159, R272). -/

namespace Sys2Proof

/-- Signed and unsigned integers, codes 0x0 to 0x7 of R153. -/
def ETy.isInt : ETy → Bool
  | .i8 | .i16 | .i32 | .i64 | .n8 | .n16 | .n32 | .n64 => true
  | _ => false

/-- Signed integers, codes 0x0 to 0x3. -/
def ETy.isSigned : ETy → Bool
  | .i8 | .i16 | .i32 | .i64 => true
  | _ => false

/-- "float" of R153: codes 0x8 to 0xB. -/
def ETy.isFloat : ETy → Bool
  | .f16 | .bf16 | .f32 | .f64 => true
  | _ => false

/-- "element" of R153: codes 0x0 to 0xD. -/
def ETy.isElement : ETy → Bool
  | .q4 | .mx4 => false
  | _ => true

/-- A value of the type fills an even-odd register pair (R42, R191). -/
def ETy.is64 : ETy → Bool
  | .i64 | .n64 | .f64 => true
  | _ => false

/-- Bytes of an access of the type (R272); 4-bit elements have no access of their own. -/
def ETy.bytes : ETy → Nat
  | .i8 | .n8 | .e4m3 | .e5m2 => 1
  | .i16 | .n16 | .f16 | .bf16 => 2
  | .i32 | .n32 | .f32 => 4
  | .i64 | .n64 | .f64 => 8
  | .q4 | .mx4 => 1

/-- Bits of a value of the type. -/
def ETy.bits (t : ETy) : Nat :=
  match t with
  | .q4 | .mx4 => 4
  | _ => 8 * t.bytes

/-- The integer types of the atomics and of WAITV (R156). -/
def ETy.isAtomInt : ETy → Bool
  | .i32 | .n32 | .i64 | .n64 => true
  | _ => false

/-- A register field that holds a value of type t: even when the value is 64 bits wide (R144). -/
def regFits (t : ETy) (r : Fin 64) : Bool := !t.is64 || r.val % 2 == 0

/-- A register field that names a pair (R144). -/
def pairFits (r : Fin 64) : Bool := r.val % 2 == 0

/-- Guard (!p7) is no legal guard (R145). -/
def Guard.legal (g : Guard) : Bool := !(g.pred == 7 && g.neg)

/-- p7 is no predicate destination (R146). -/
def predDest (p : PReg) : Bool := p != 7

/-- MAD accepts the 32- and 64-bit integers and every float (R154). -/
def ETy.isMad (t : ETy) : Bool := t.isAtomInt || t.isFloat

/-- rm of ADD, SUB, MUL and MAD: anything for a float, 0 for an integer (R154). -/
def Rnd.fitsFloat (t : ETy) (rm : Rnd) : Bool := t.isFloat || rm == .mode

/-- SETcc's unordered condition needs a float type (R154). -/
def SetCond.fits (t : ETy) (cc : SetCond) : Bool := t.isFloat || cc != .un

/-- NEG and ABS accept the signed integers and the floats (R154). -/
def ETy.isNegatable (t : ETy) : Bool := t.isSigned || t.isFloat

/-- The special functions accept .F16 and .F32 (R154, R214). -/
def ETy.isSpecial : ETy → Bool
  | .f16 | .f32 => true
  | _ => false

/-- rm of CVT: free when one type is a float of R153, else 0 (R154). -/
def Rnd.fitsCvt (t u : ETy) (rm : Rnd) : Bool := t.isFloat || u.isFloat || rm == .mode

/-- type2 of DP4 (R154). -/
def ETy.isDp4 : ETy → Bool
  | .i8 | .n8 => true
  | _ => false

/-- The types XPAND expands to (R156). -/
def ETy.isXpand : ETy → Bool
  | .f16 | .bf16 | .f32 => true
  | _ => false

def Scope.rank : Scope → Nat
  | .grp => 0 | .team => 1 | .core => 2 | .die => 3 | .pkg => 4 | .fab => 5

/-- The scope is no wider than the opcode's largest (R156). -/
def Scope.within (s limit : Scope) : Bool := s.rank ≤ limit.rank

/-- Scope must be 0 when the order is relaxed, except in the atomics (R156). -/
def scopeFits (o : Order) (s limit : Scope) : Bool :=
  s.within limit && (o != .relaxed || s == .grp)

/-- Loads are relaxed or .ACQ (R156). -/
def Order.fitsLoad : Order → Bool
  | .relaxed | .acq => true
  | _ => false

/-- Stores, remote copies and puts are relaxed or .REL (R156). -/
def Order.fitsStore : Order → Bool
  | .relaxed | .rel => true
  | _ => false

/-- Type of an atomic: an integer of 32 or 64 bits, or .F32 (R156). -/
def ETy.isAtom (t : ETy) : Bool := t.isAtomInt || t == .f32

/-- rm of an atomic: free for .F32, else 0 (R156). -/
def Rnd.fitsAtom (t : ETy) (rm : Rnd) : Bool := t == .f32 || rm == .mode

/-- With .F32 only .ADD is accepted (R156). -/
def AtomOp.fits (t : ETy) (op : AtomOp) : Bool := t != .f32 || op == .add

/-- A run of n registers from r stays within index 63 (R144). -/
def rangeFits (r : Fin 64) (n : Nat) : Bool := r.val + n ≤ 64

end Sys2Proof
end

