-- ==== Sys2Proof/WellFormed.lean ====
section
/-! DEFINITION. Which terms of Instr stand for a legal encoding: the limits of R144 to R159 and of each entry that the
field types do not already carry. Steps of the other agents have no encoding and no limits of this kind. -/

namespace Sys2Proof

def LaneR.ok (o : LaneR) : Bool := o.g.legal
def LaneI.ok (o : LaneI) : Bool := o.g.legal
def LaneU.ok (o : LaneU) : Bool := o.g.legal
def LaneM.ok (o : LaneM) : Bool := o.g.legal

/-- The I form of a 32-bit shift reads bits 4-0; bits 31-5 are reserved (R151). -/
def immShift32 (imm : Word) : Bool := imm.toNat < 32
/-- The I form of a 64-bit shift reads bits 5-0 (R151, R227). -/
def immShift64 (imm : Word) : Bool := imm.toNat < 64

def CmpR.ok (o : CmpR) : Bool := o.g.legal && predDest o.pd
def CmpI.ok (o : CmpI) : Bool := o.g.legal && predDest o.pd
def PredU.ok (o : PredU) : Bool := o.g.legal && predDest o.pd
def PredB.ok (o : PredB) : Bool := o.g.legal && predDest o.pd

def TypedB.regs (o : TypedB) : Bool := regFits o.t o.d && regFits o.t o.a && regFits o.t o.b
def TypedC.regs (o : TypedC) : Bool :=
  regFits o.t o.d && regFits o.t o.a && regFits o.t o.b && regFits o.t o.c
def TypedP.regs (o : TypedP) : Bool := regFits o.t o.d && regFits o.t o.a && regFits o.t o.b
def TypedP.shiftRegs (o : TypedP) : Bool := regFits o.t o.d && regFits o.t o.a
def SetccArgs.regs (o : SetccArgs) : Bool := regFits o.t o.a && regFits o.t o.b
def TypedS.regs (o : TypedS) : Bool := regFits o.t o.d && regFits o.t o.a
def TypedQ.regs (o : TypedQ) : Bool := regFits o.t o.d && regFits o.t o.a
def TypedN.regs (o : TypedN) : Bool := regFits o.t o.d && regFits o.t o.a
def TypedU.regs (o : TypedU) : Bool := regFits o.t o.d && regFits o.t o.a
def CvtArgs.regs (o : CvtArgs) : Bool := regFits o.t o.d && regFits o.u o.a

/-- ADD, SUB, MUL (R154). -/
def TypedB.okArith (o : TypedB) : Bool :=
  o.regs && o.g.legal && (o.t.isInt || o.t.isFloat) && Rnd.fitsFloat o.t o.rm
/-- DIV (R154). -/
def TypedB.okDiv (o : TypedB) : Bool := o.regs && o.g.legal && o.t.isFloat
def TypedC.ok (o : TypedC) : Bool := o.regs && o.g.legal && o.t.isMad && Rnd.fitsFloat o.t o.rm
/-- MIN, MAX (R154). -/
def TypedP.okMinMax (o : TypedP) : Bool := o.regs && o.g.legal && (o.t.isInt || o.t.isFloat)
/-- SHL, SHR (R154, R208). -/
def TypedP.okShift (o : TypedP) : Bool := o.shiftRegs && o.g.legal && o.t.isInt
def SetccArgs.ok (o : SetccArgs) : Bool :=
  o.regs && o.g.legal && predDest o.pd && (o.t.isInt || o.t.isFloat) && o.cc.fits o.t
def TypedS.ok (o : TypedS) : Bool := o.regs && o.g.legal && o.t.isNegatable
def TypedQ.ok (o : TypedQ) : Bool := o.regs && o.g.legal && o.t.isFloat
def TypedN.ok (o : TypedN) : Bool := o.regs && o.g.legal && o.t.isFloat
/-- FCLASS writes a 32-bit register for every type (R213). -/
def TypedU.okFclass (o : TypedU) : Bool := regFits o.t o.a && o.g.legal && o.t.isFloat
/-- The special functions (R214). -/
def TypedU.okSpecial (o : TypedU) : Bool := o.regs && o.g.legal && o.t.isSpecial
def CvtArgs.ok (o : CvtArgs) : Bool :=
  o.regs && o.g.legal && o.t.isElement && (o.u.isElement && o.u != o.t) && Rnd.fitsCvt o.t o.u o.rm
def Dp4Args.ok (o : Dp4Args) : Bool := o.g.legal && o.u.isDp4
def LdArgs.ok (o : LdArgs) : Bool :=
  (pairFits o.a && regFits o.t o.d) && o.g.legal && o.t.isElement && o.ord.fitsLoad && scopeFits o.ord o.scope .die
def StArgs.ok (o : StArgs) : Bool :=
  (pairFits o.a && regFits o.t o.b) && o.g.legal && o.t.isElement && o.ord.fitsStore && scopeFits o.ord o.scope .die
def AtomArgs.ok (o : AtomArgs) : Bool :=
  (pairFits o.a && regFits o.t o.d && regFits o.t o.b) && o.g.legal && o.t.isAtom && Rnd.fitsAtom o.t o.rm
    && o.scope.within .die && o.op.fits o.t
def CasArgs.ok (o : CasArgs) : Bool :=
  (pairFits o.a && regFits o.t o.d && regFits o.t o.b && regFits o.t o.c) && o.g.legal && o.t.isAtomInt
    && o.scope.within .die
def DepositArgs.ok (o : DepositArgs) : Bool := rangeFits o.b 4 && o.g.legal
/-- MMA: rows in 16 registers, the format block at a multiple of 4 (R326). -/
def MmaArgs.okMma (o : MmaArgs) : Bool :=
  (pairFits o.d && rangeFits o.a 16 && o.fb.val % 4 == 0 && pairFits o.sbm) && o.g.legal
/-- MMAS: rows in 12 registers (R327). -/
def MmaArgs.okMmas (o : MmaArgs) : Bool :=
  (pairFits o.d && rangeFits o.a 12 && o.fb.val % 4 == 0 && pairFits o.sbm) && o.g.legal
def MmvArgs.ok (o : MmvArgs) : Bool := (o.fb.val % 4 == 0 && pairFits o.sbm) && o.g.legal

def SclR.okPairs (o : SclR) : Bool := pairFits o.d && pairFits o.a && pairFits o.b
def SclR.okPairs2 (o : SclR) : Bool := pairFits o.d && pairFits o.a
def SclI.okPairs (o : SclI) : Bool := pairFits o.d && pairFits o.a
def SclI.okShift32 (o : SclI) : Bool := immShift32 o.imm
def SclI.okShift64 (o : SclI) : Bool := immShift64 o.imm && (pairFits o.d && pairFits o.a)
def SclU.okPairs (o : SclU) : Bool := pairFits o.d && pairFits o.a
/-- SYSRD writes a pair; SYSWR reads one (R251). -/
def SclU.okSysrd (o : SclU) : Bool := pairFits o.d
def SclU.okSyswr (o : SclU) : Bool := pairFits o.a
def ScmpR.okPairs (o : ScmpR) : Bool := pairFits o.a && pairFits o.b
/-- A displacement is a multiple of 4 (R151). -/
def dispFits (d : Word) : Bool := d.toNat % 4 == 0
/-- MSPLIT !p7 is no legal encoding (R233). -/
def MsplitArgs.ok (o : MsplitArgs) : Bool := !(o.p == 7 && o.neg)
def SldArgs.ok (o : SldArgs) : Bool :=
  (pairFits o.a && regFits o.t o.d) && o.t.isElement && o.ord.fitsLoad && scopeFits o.ord o.scope .pkg
def SstArgs.ok (o : SstArgs) : Bool :=
  (pairFits o.a && regFits o.t o.b) && o.t.isElement && o.ord.fitsStore && scopeFits o.ord o.scope .pkg
def SatomArgs.ok (o : SatomArgs) : Bool :=
  (pairFits o.a && regFits o.t o.d && regFits o.t o.b) && o.t.isAtom && Rnd.fitsAtom o.t o.rm
    && o.scope.within .pkg && o.op.fits o.t
def ScasArgs.ok (o : ScasArgs) : Bool :=
  (pairFits o.a && regFits o.t o.d && regFits o.t o.b && regFits o.t o.c) && o.t.isAtomInt && o.scope.within .pkg
/-- FENCE has an order and at least one class (R156, R282). -/
def FenceArgs.ok (o : FenceArgs) : Bool := o.ord != .relaxed && o.classes != 0
def WaitvArgs.ok (o : WaitvArgs) : Bool :=
  (regFits o.t o.d && pairFits o.a && regFits o.t o.b) && o.t.isAtomInt && o.ord.fitsLoad && scopeFits o.ord o.scope .pkg
def WaitvmArgs.ok (o : WaitvmArgs) : Bool :=
  (regFits o.t o.d && pairFits o.a && regFits o.t o.b && regFits o.t o.c) && o.t.isAtomInt && o.ord.fitsLoad
    && scopeFits o.ord o.scope .pkg
/-- Three registers from c (R292). -/
def GatherArgs.ok (o : GatherArgs) : Bool := pairFits o.d && pairFits o.a && pairFits o.b && rangeFits o.c 3
def XpandArgs.ok (o : XpandArgs) : Bool := (pairFits o.d && pairFits o.a && pairFits o.c) && o.t.isXpand
def RputArgs.okRcopy (o : RputArgs) : Bool :=
  (pairFits o.d && pairFits o.a && pairFits o.c) && o.ord.fitsStore && scopeFits o.ord o.scope .pkg
def RputArgs.okPut (o : RputArgs) : Bool :=
  (pairFits o.d && pairFits o.a && pairFits o.c) && o.ord.fitsStore && scopeFits o.ord o.scope .die

/-- A term that some legal encoding stands for; true of every step without an encoding. -/
def Instr.wellFormed : Instr → Bool
  | .launchPacket _ => true
  | .launchDispatch _ => true
  | .install _ => true
  | .eventSend _ => true
  | .teamPlacement _ => true
  | .clauseFill _ => true
  | .textPageVerify _ => true
  | .roundRobinTurn _ => true
  | .yieldDeferralEnd _ => true
  | .variableLatencyResult _ => true
  | .memoryAccessReturn _ => true
  | .copyReturn _ => true
  | .parkedAccessReplay _ => true
  | .rcopyLanding _ => true
  | .putLanding _ => true
  | .heldPutDelivery _ => true
  | .tileDelivery _ => true
  | .accumulatorWrite _ => true
  | .barrierTimeout _ => true
  | .waitvReread _ => true
  | .teamSwap _ => true
  | .swapRestore _ => true
  | .groupEnd _ => true
  | .launchComplete _ => true
  | .collapse _ => true
  | .eccError _ => true
  | .clusterCheckDrain _ => true
  | .thermalTrip _ => true
  | .powerOn _ => true
  | .tileStopSave _ => true
  | .wheyEntry _ => true
  | .saveSeal _ => true
  | .tileRestore _ => true
  | .inFieldScanTest _ => true
  | .scanDrainEnd _ => true
  | .scanPatternRunEnd _ => true
  | .scanTestAbort _ => true
  | .tileStart _ => true
  | .migrateMove _ => true
  | .migrateProtect _ => true
  | .migrateReplicate _ => true
  | .resetCompleteEvent _ => true
  | .dieResetComplete _ => true
  | .clauseHeader _ => true
  | .addI32 o => o.ok
  | .addI32Imm o => o.ok
  | .subI32 o => o.ok
  | .subI32Imm o => o.ok
  | .mulI32 o => o.ok
  | .mulI32Imm o => o.ok
  | .mulhiI32 o => o.ok
  | .mulhiI32Imm o => o.ok
  | .mulhiN32 o => o.ok
  | .mulhiN32Imm o => o.ok
  | .minI32 o => o.ok
  | .minI32Imm o => o.ok
  | .maxI32 o => o.ok
  | .maxI32Imm o => o.ok
  | .minN32 o => o.ok
  | .minN32Imm o => o.ok
  | .maxN32 o => o.ok
  | .maxN32Imm o => o.ok
  | .and o => o.ok
  | .andImm o => o.ok
  | .or o => o.ok
  | .orImm o => o.ok
  | .xor o => o.ok
  | .xorImm o => o.ok
  | .andn o => o.ok
  | .andnImm o => o.ok
  | .shl o => o.ok
  | .shlImm o => o.ok && immShift32 o.imm
  | .shrN32 o => o.ok
  | .shrN32Imm o => o.ok && immShift32 o.imm
  | .shrI32 o => o.ok
  | .shrI32Imm o => o.ok && immShift32 o.imm
  | .rol o => o.ok
  | .rolImm o => o.ok && immShift32 o.imm
  | .popc o => o.ok
  | .clz o => o.ok
  | .brev o => o.ok
  | .mov o => o.ok
  | .movImm o => o.ok
  | .absI32 o => o.ok
  | .negI32 o => o.ok
  | .seteqI32 o => o.ok
  | .seteqI32Imm o => o.ok
  | .setneI32 o => o.ok
  | .setneI32Imm o => o.ok
  | .setltI32 o => o.ok
  | .setltI32Imm o => o.ok
  | .setleI32 o => o.ok
  | .setleI32Imm o => o.ok
  | .setltN32 o => o.ok
  | .setltN32Imm o => o.ok
  | .setleN32 o => o.ok
  | .setleN32Imm o => o.ok
  | .setgtI32 o => o.ok
  | .setgtI32Imm o => o.ok
  | .setgtN32 o => o.ok
  | .setgtN32Imm o => o.ok
  | .pmov o => o.ok
  | .pnot o => o.ok
  | .pand o => o.ok
  | .por o => o.ok
  | .pxor o => o.ok
  | .ptoi o => o.g.legal
  | .lid o => o.g.legal
  | .addTyped o => o.okArith
  | .subTyped o => o.okArith
  | .mulTyped o => o.okArith
  | .mad o => o.ok
  | .minTyped o => o.okMinMax
  | .maxTyped o => o.okMinMax
  | .setcc o => o.ok
  | .shlTyped o => o.okShift
  | .shrTyped o => o.okShift
  | .negTyped o => o.ok
  | .absTyped o => o.ok
  | .div o => o.okDiv
  | .sqrt o => o.ok
  | .cvt o => o.ok
  | .rndi o => o.ok
  | .fclass o => o.okFclass
  | .sin o => o.okSpecial
  | .cos o => o.okSpecial
  | .rcp o => o.okSpecial
  | .rsq o => o.okSpecial
  | .exp2 o => o.okSpecial
  | .log2 o => o.okSpecial
  | .dp4 o => o.ok
  | .shfl o => o.ok
  | .swap o => o.g.legal
  | .bcast o => o.ok
  | .bcastImm o => o.ok
  | .rot o => o.ok
  | .rotImm o => o.ok
  | .prmt o => o.g.legal
  | .pack o => o.ok
  | .ld o => o.ok
  | .st o => o.ok
  | .atom o => o.ok
  | .cas o => o.ok
  | .deposit o => o.ok
  | .mma o => o.okMma
  | .mmv o => o.ok
  | .mmas o => o.okMmas
  | .smovI32 _ => true
  | .smovI32Imm _ => true
  | .saddI32 _ => true
  | .saddI32Imm _ => true
  | .ssubI32 _ => true
  | .ssubI32Imm _ => true
  | .smulI32 _ => true
  | .smulI32Imm _ => true
  | .smulhiI32 _ => true
  | .smulhiI32Imm _ => true
  | .smulhiN32 _ => true
  | .smulhiN32Imm _ => true
  | .sminI32 _ => true
  | .sminI32Imm _ => true
  | .smaxI32 _ => true
  | .smaxI32Imm _ => true
  | .sshl _ => true
  | .sshlImm o => o.okShift32
  | .sshrN32 _ => true
  | .sshrN32Imm o => o.okShift32
  | .sshrI32 _ => true
  | .sshrI32Imm o => o.okShift32
  | .sand _ => true
  | .sandImm _ => true
  | .sor _ => true
  | .sorImm _ => true
  | .sxor _ => true
  | .sxorImm _ => true
  | .sandn _ => true
  | .sandnImm _ => true
  | .sminN32 _ => true
  | .sminN32Imm _ => true
  | .smaxN32 _ => true
  | .smaxN32Imm _ => true
  | .spopc _ => true
  | .sclz _ => true
  | .scmpI32 _ => true
  | .scmpI32Imm _ => true
  | .smovI64 o => o.okPairs
  | .smovI64Imm o => pairFits o.d
  | .saddI64 o => o.okPairs
  | .saddI64Imm o => o.okPairs
  | .ssubI64 o => o.okPairs
  | .ssubI64Imm o => o.okPairs
  | .smulI64 o => o.okPairs
  | .smulI64Imm o => o.okPairs
  | .sshlN64 o => o.okPairs2
  | .sshlN64Imm o => o.okShift64
  | .sshrN64 o => o.okPairs2
  | .sshrN64Imm o => o.okShift64
  | .scmpI64 o => o.okPairs
  | .bra o => dispFits o.disp
  | .call o => dispFits o.disp
  | .ret _ => true
  | .join _ => true
  | .msplit o => o.ok
  | .melse _ => true
  | .splane _ => true
  | .smodeRd _ => true
  | .smodeWr _ => true
  | .smodeClr _ => true
  | .smodeRm _ => true
  | .sid _ => true
  | .ldarg _ => true
  | .sigchk _ => true
  | .trap _ => true
  | .mark _ => true
  | .patchreq o => pairFits o
  | .tclk o => pairFits o
  | .sysrd o => o.okSysrd
  | .syswr o => o.okSyswr
  | .sld o => o.ok
  | .sst o => o.ok
  | .satom o => o.ok
  | .scas o => o.ok
  | .fence o => o.ok
  | .waitp _ => true
  | .waitv o => o.ok
  | .waitvm o => o.ok
  | .bar _ => true
  | .cpin o => o.okPairs2
  | .cpout o => o.okPairs2
  | .gather o => o.ok
  | .xpand o => o.ok
  | .rcopy o => o.okRcopy
  | .put o => o.okPut
  | .stream o => pairFits o
  | .vatset _ => true
  | .relaunch o => pairFits o
  | .bulkDataIngress _ => true
  | .spillFillComplete _ => true
  | .lateSourceRead _ => true
  | .patchVersioned => true
  | .patchInPlace => true
  | .accessControlEntryWrite => true
  | .partitionDescriptorWrite => true
  | .partitionControlWrite => true
  | .scratchpadAllocationWrite => true
  | .rootTableWrite => true
  | .keySlotLoad => true
  | .faultRingWrite => true
  | .traceRingWrite => true
  | .swapPolicySet => true
  | .coreRetireGrantSet => true
  | .invalidateRange => true
  | .partitionReset => true
  | .dieReset => true
  | .clusterRebuild => true
  | .clusterRelease => true
  | .debugResume => true
  | .debugStep => true
  | .debugTerminate => true
  | .patchSubmit => true
  | .powerLimitSet => true
  | .counterRead => true
  | .attestationReport => true
  | .thermalResume => true
  | .journalClear => true
  | .ownerEndpointChange => true
  | .dieOutOfService => true
  | .migrationSubmit => true
  | .splinterPoolSet => true
  | .swapPoolSet => true
  | .unknownOp => true
  | .regang => true
  | .yield => true
  | .exit => true
  | .ienter => true
  | .brk => true
  | .powerLoss => true

end Sys2Proof
end

