-- ==== Sys2Proof/Decode.lean ====
section
/-! DEFINITION. From the words of an instruction to Instr, or to the fault that R165 names for them; and the encoder.
Fields are taken from words read as numbers, bit 0 the least significant (R5). The checks of an encoding stand in the
order of R165: reserved bits, register fields, guard, predicate operands, K, sub, fields that sub decides, types, rm,
order, scope, op, class, selectors. SWAP's distance needs the group width and is judged when it executes (R159). -/

namespace Sys2Proof

/-- Why a word is no instruction: no cell of the maps (R167), or a field the opcode does not accept, with the field
code of R165. -/
inductive Reject where
  /-- No opcode of R160 or R161: the illegal-instruction fault. Safe. -/
  | illegalInstruction
  /-- An illegal-encoding fault with its field code. Safe. -/
  | illegalEncoding (code : Nat)
  deriving DecidableEq, Repr

/-- The bit field of x from bit lo, n bits wide. -/
def fld (x lo n : Nat) : Nat := x / 2 ^ lo % 2 ^ n

/-- A 6-bit register field. -/
def reg6 (x lo : Nat) : Fin 64 := Fin.ofNat 64 (fld x lo 6)
/-- A predicate number in the low three bits of a field (R146). -/
def pred3 (x lo : Nat) : Fin 8 := Fin.ofNat 8 (fld x lo 3)

def ETy.ofCode : Nat → ETy
  | 0 => .i8 | 1 => .i16 | 2 => .i32 | 3 => .i64 | 4 => .n8 | 5 => .n16 | 6 => .n32 | 7 => .n64
  | 8 => .f16 | 9 => .bf16 | 10 => .f32 | 11 => .f64 | 12 => .e4m3 | 13 => .e5m2 | 14 => .q4 | _ => .mx4

def ETy.code : ETy → Nat
  | .i8 => 0 | .i16 => 1 | .i32 => 2 | .i64 => 3 | .n8 => 4 | .n16 => 5 | .n32 => 6 | .n64 => 7
  | .f16 => 8 | .bf16 => 9 | .f32 => 10 | .f64 => 11 | .e4m3 => 12 | .e5m2 => 13 | .q4 => 14 | .mx4 => 15

/-- Rounding values 6 and 7 are illegal (R49). -/
def Rnd.ofCode : Nat → Option Rnd
  | 0 => some .mode | 1 => some .rn | 2 => some .rz | 3 => some .rd | 4 => some .ru | 5 => some .ra
  | _ => none

def Rnd.code : Rnd → Nat
  | .mode => 0 | .rn => 1 | .rz => 2 | .rd => 3 | .ru => 4 | .ra => 5

def Order.ofCode : Nat → Order
  | 0 => .relaxed | 1 => .acq | 2 => .rel | _ => .ar

def Order.code : Order → Nat
  | .relaxed => 0 | .acq => 1 | .rel => 2 | .ar => 3

/-- Scopes 6 and 7 are reserved (R155). -/
def Scope.ofCode : Nat → Option Scope
  | 0 => some .grp | 1 => some .team | 2 => some .core | 3 => some .die | 4 => some .pkg | 5 => some .fab
  | _ => none

def AtomOp.ofCode : Nat → Option AtomOp
  | 0 => some .add | 1 => some .min | 2 => some .max | 3 => some .and | 4 => some .or | 5 => some .xor
  | 6 => some .exch | _ => none

def AtomOp.code : AtomOp → Nat
  | .add => 0 | .min => 1 | .max => 2 | .and => 3 | .or => 4 | .xor => 5 | .exch => 6

/-- The comparison that code n of WAITV's op field names (R156). -/
def Cmp.ofCode : Nat → Option Cmp
  | 0 => some .eq | 1 => some .ne | 2 => some .lt | 3 => some .ge | 4 => some .ltu | 5 => some .geu
  | _ => none

def Cmp.code : Cmp → Nat
  | .eq => 0 | .ne => 1 | .lt => 2 | .ge => 3 | .ltu => 4 | .geu => 5

/-- SCMP's condition in sub: the codes 0x05 to 0x0A of R149. -/
def Cmp.ofSub (n : Nat) : Option Cmp := if 5 ≤ n then Cmp.ofCode (n - 5) else none

def SetCond.ofCode : Nat → Option SetCond
  | 0 => some .eq | 1 => some .ne | 2 => some .lt | 3 => some .le | 4 => some .gt | 5 => some .ge
  | 6 => some .un | _ => none

def SetCond.code : SetCond → Nat
  | .eq => 0 | .ne => 1 | .lt => 2 | .le => 3 | .gt => 4 | .ge => 5 | .un => 6

def Path.ofCode : Nat → Option Path
  | 0 => some .copyIn | 1 => some .copyOut | 2 => some .gather | 3 => some .stream | _ => none

def Path.code : Path → Nat
  | .copyIn => 0 | .copyOut => 1 | .gather => 2 | .stream => 3

def LidSel.ofCode : Nat → Option LidSel
  | 0 => some .lane | 1 => some .plane | 2 => some .position | _ => none

def LidSel.code : LidSel → Nat
  | .lane => 0 | .plane => 1 | .position => 2

def SidSel.ofCode : Nat → Option SidSel
  | 0 => some .slice | 1 => some .group | 2 => some .role | 3 => some .teamLinear | 4 => some .teamX
  | 5 => some .teamY | 6 => some .teamZ | 7 => some .die | 8 => some .core | 9 => some .subCore
  | 10 => some .width | 11 => some .em | 12 => some .partition | 13 => some .codeVersion | 14 => some .tag
  | 15 => some .generation | 16 => some .level | 17 => some .wb | 18 => some .depth | _ => none

def SidSel.code : SidSel → Nat
  | .slice => 0 | .group => 1 | .role => 2 | .teamLinear => 3 | .teamX => 4 | .teamY => 5 | .teamZ => 6
  | .die => 7 | .core => 8 | .subCore => 9 | .width => 10 | .em => 11 | .partition => 12 | .codeVersion => 13
  | .tag => 14 | .generation => 15 | .level => 16 | .wb => 17 | .depth => 18

/-- The condition that sub names, with the registers it reads; none for 0x0E to 0x1F (R149). -/
def BraCond.ofSub (sub : Nat) (a b : SReg) : Option BraCond :=
  match sub with
  | 0 => some .always | 1 => some (.z a) | 2 => some (.nz a) | 3 => some (.ltz a) | 4 => some (.gez a)
  | 5 => some (.cmp .eq a b) | 6 => some (.cmp .ne a b) | 7 => some (.cmp .lt a b) | 8 => some (.cmp .ge a b)
  | 9 => some (.cmp .ltu a b) | 10 => some (.cmp .geu a b)
  | 11 => some .none | 12 => some .any | 13 => some .all | _ => Option.none

/-- sub, sa and sb of a BRA (R149). -/
def BraCond.fields : BraCond → Nat × Nat × Nat
  | .always => (0, 0, 0)
  | .z a => (1, a.val, 0) | .nz a => (2, a.val, 0) | .ltz a => (3, a.val, 0) | .gez a => (4, a.val, 0)
  | .cmp c a b => (c.code + 5, a.val, b.val)
  | .none => (11, 0, 0) | .any => (12, 0, 0) | .all => (13, 0, 0)

/-- A check of R165: the field code when it fails, else the checks after it. -/
def need (ok : Bool) (code : Nat) (k : Except Reject Instr) : Except Reject Instr :=
  if ok then k else .error (.illegalEncoding code)

/-- A field that must hold a value the opcode accepts. -/
def needSome {α : Type} (x : Option α) (ok : α → Bool) (code : Nat) (k : α → Except Reject Instr) :
    Except Reject Instr :=
  match x with
  | some v => if ok v then k v else .error (.illegalEncoding code)
  | none => .error (.illegalEncoding code)

/-! Fields of the primary words (R143, R148). -/

def fX (w : Nat) : Nat := fld w 30 1
def fOp (w : Nat) : Nat := fld w 23 7
/-- dst or sd. -/
def fD (w : Nat) : Fin 64 := reg6 w 17
/-- srca or sa. -/
def fA (w : Nat) : Fin 64 := reg6 w 11
/-- srcb or sb. -/
def fB (w : Nat) : Fin 64 := reg6 w 5
def fSub (w : Nat) : Nat := fld w 0 5
def fK (w : Nat) : Nat := fld w 0 1
def fGuard (w : Nat) : Guard := { pred := pred3 w 2, neg := fld w 1 1 == 1 }

/-- Upper bits of a predicate operand are reserved (R146). -/
def predBits (w lo : Nat) : Bool := fld w (lo + 3) 3 == 0

/-- The guard and K checks of a lane instruction that has no K (R145, R147), with predicate operands between them. -/
def laneChecks (w : Nat) (preds : Bool) (k : Except Reject Instr) : Except Reject Instr :=
  need (fGuard w).legal 5 <| need preds 5 <| need (fK w == 0) 6 k

/-- Z only: X = 0. -/
def zForm (w : Nat) (k : Except Reject Instr) : Except Reject Instr := need (fX w == 0) 1 k
/-- X = 1 only. -/
def xForm (w : Nat) (k : Except Reject Instr) : Except Reject Instr := need (fX w == 1) 1 k

/-! Lane forms. -/

def decLaneR (w : Nat) (mk : LaneR → Instr) : Except Reject Instr :=
  laneChecks w true <| .ok (mk { g := fGuard w, d := fD w, a := fA w, b := fB w })

def decLaneI (w e : Nat) (immOk : Bool) (mk : LaneI → Instr) : Except Reject Instr :=
  need (fB w == 0) 2 <| need immOk 3 <|
  laneChecks w true <| .ok (mk { g := fGuard w, d := fD w, a := fA w, imm := BitVec.ofNat 32 e })

/-- A ZI cell of the lane map (R151, R158). -/
def decLaneZI (w e : Nat) (r : LaneR → Instr) (i : LaneI → Instr) : Except Reject Instr :=
  if fX w = 0 then decLaneR w r else decLaneI w e true i

/-- The ZI shifts: bits 31-5 of the immediate are reserved (R151). -/
def decLaneShift (w e : Nat) (r : LaneR → Instr) (i : LaneI → Instr) : Except Reject Instr :=
  if fX w = 0 then decLaneR w r else decLaneI w e (decide (e < 32)) i

def decLaneU (w : Nat) (mk : LaneU → Instr) : Except Reject Instr :=
  need (fB w == 0) 2 <| laneChecks w true <| .ok (mk { g := fGuard w, d := fD w, a := fA w })

def decMov (w e : Nat) : Except Reject Instr :=
  if fX w = 0 then decLaneU w .mov
  else need (fA w == 0 && fB w == 0) 2 <| laneChecks w true <|
    .ok (.movImm { g := fGuard w, d := fD w, imm := BitVec.ofNat 32 e })

def decCmp (w e : Nat) (r : CmpR → Instr) (i : CmpI → Instr) : Except Reject Instr :=
  if fX w = 0 then
    need (predBits w 17) 2 <| laneChecks w (predDest (pred3 w 17)) <|
    .ok (r { g := fGuard w, pd := pred3 w 17, a := fA w, b := fB w })
  else
    need (predBits w 17 && fB w == 0) 2 <| laneChecks w (predDest (pred3 w 17)) <|
    .ok (i { g := fGuard w, pd := pred3 w 17, a := fA w, imm := BitVec.ofNat 32 e })

def decPredU (w : Nat) (mk : PredU → Instr) : Except Reject Instr :=
  zForm w <| need (predBits w 17 && predBits w 11 && fB w == 0) 2 <|
  laneChecks w (predDest (pred3 w 17)) <|
  .ok (mk { g := fGuard w, pd := pred3 w 17, pa := pred3 w 11 })

def decPredB (w : Nat) (mk : PredB → Instr) : Except Reject Instr :=
  zForm w <| need (predBits w 17 && predBits w 11 && predBits w 5) 2 <|
  laneChecks w (predDest (pred3 w 17)) <|
  .ok (mk { g := fGuard w, pd := pred3 w 17, pa := pred3 w 11, pb := pred3 w 5 })

def decPtoi (w : Nat) : Except Reject Instr :=
  zForm w <| need (predBits w 11 && fB w == 0) 2 <| laneChecks w true <|
  .ok (.ptoi { g := fGuard w, d := fD w, pa := pred3 w 11 })

def decLid (w : Nat) : Except Reject Instr :=
  zForm w <| need (fB w == 0) 2 <| laneChecks w true <|
  needSome (LidSel.ofCode (fld w 11 6)) (fun _ => true) 14 fun sel =>
  .ok (.lid { g := fGuard w, d := fD w, sel := sel })

/-! Fields of the T form (R152). -/

def tC (e : Nat) : Fin 64 := reg6 e 26
def tType (e : Nat) : ETy := ETy.ofCode (fld e 22 4)
def tType2 (e : Nat) : ETy := ETy.ofCode (fld e 18 4)
def tRm (e : Nat) : Option Rnd := Rnd.ofCode (fld e 15 3)
def tSat (e : Nat) : Bool := fld e 14 1 == 1
def tClass (e : Nat) : Nat := fld e 0 14
/-- c, type2 and class are reserved. -/
def tPlain (e : Nat) : Bool := tC e == 0 && fld e 18 4 == 0 && tClass e == 0

/-- rm and sat where a row confines them (R154): their own codes, never code 3. -/
def rmZero (r : Option Rnd) : Bool := r == some .mode

def decTypedB (w e : Nat) (ok : TypedB → Bool) (rmOk : ETy → Rnd → Bool) (mk : TypedB → Instr) : Except Reject Instr :=
  let o := fun rm : Rnd => ({ g := fGuard w, t := tType e, rm := rm, sat := tSat e, d := fD w, a := fA w, b := fB w } : TypedB)
  xForm w <| need (tPlain e) 3 <| need (o .mode).regs 4 <| laneChecks w true <|
  need (ok (o .mode)) 8 <| needSome (tRm e) (rmOk (tType e)) 9 fun rm => .ok (mk (o rm))

def decMad (w e : Nat) : Except Reject Instr :=
  let o := fun rm : Rnd =>
    ({ g := fGuard w, t := tType e, rm := rm, sat := tSat e, d := fD w, a := fA w, b := fB w, c := tC e } : TypedC)
  xForm w <| need (fld e 18 4 == 0 && tClass e == 0) 3 <| need (o .mode).regs 4 <| laneChecks w true <|
  need (tType e).isMad 8 <| needSome (tRm e) (Rnd.fitsFloat (tType e)) 9 fun rm => .ok (.mad (o rm))

def decTypedP (w e : Nat) (ty : ETy → Bool) (mk : TypedP → Instr) : Except Reject Instr :=
  let o : TypedP := { g := fGuard w, t := tType e, d := fD w, a := fA w, b := fB w }
  xForm w <| need (tPlain e) 3 <| need o.regs 4 <| laneChecks w true <|
  need (ty o.t) 8 <| need (rmZero (tRm e)) 9 <| need (!tSat e) 10 <| .ok (mk o)

/-- Typed shifts: class bit 0 is the direction, 13-1 are reserved (R154). -/
def decTypedShift (w e : Nat) : Except Reject Instr :=
  let o : TypedP := { g := fGuard w, t := tType e, d := fD w, a := fA w, b := fB w }
  xForm w <| need (tC e == 0 && fld e 18 4 == 0 && fld e 1 13 == 0) 3 <| need o.shiftRegs 4 <| laneChecks w true <|
  need o.t.isInt 8 <| need (rmZero (tRm e)) 9 <| need (!tSat e) 10 <|
  if fld e 0 1 = 0 then .ok (.shlTyped o) else .ok (.shrTyped o)

def decSetcc (w e : Nat) : Except Reject Instr :=
  let o := fun cc : SetCond =>
    ({ g := fGuard w, t := tType e, cc := cc, pd := pred3 w 17, a := fA w, b := fB w } : SetccArgs)
  xForm w <| need (predBits w 17) 2 <| need (tC e == 0 && fld e 18 4 == 0 && fld e 3 11 == 0) 3 <|
  need (o .eq).regs 4 <| laneChecks w (predDest (pred3 w 17)) <|
  need ((tType e).isInt || (tType e).isFloat) 8 <| need (rmZero (tRm e)) 9 <| need (!tSat e) 10 <|
  needSome (SetCond.ofCode (fld e 0 3)) (SetCond.fits (tType e)) 14 fun cc => .ok (.setcc (o cc))

def decTypedS (w e : Nat) (mk : TypedS → Instr) : Except Reject Instr :=
  let o : TypedS := { g := fGuard w, t := tType e, sat := tSat e, d := fD w, a := fA w }
  xForm w <| need (fB w == 0) 2 <| need (tPlain e) 3 <| need o.regs 4 <| laneChecks w true <|
  need o.t.isNegatable 8 <| need (rmZero (tRm e)) 9 <| .ok (mk o)

def decSqrt (w e : Nat) : Except Reject Instr :=
  let o := fun rm : Rnd => ({ g := fGuard w, t := tType e, rm := rm, sat := tSat e, d := fD w, a := fA w } : TypedQ)
  xForm w <| need (fB w == 0) 2 <| need (tPlain e) 3 <| need (o .mode).regs 4 <| laneChecks w true <|
  need (tType e).isFloat 8 <| needSome (tRm e) (fun _ => true) 9 fun rm => .ok (.sqrt (o rm))

def decRndi (w e : Nat) : Except Reject Instr :=
  let o := fun rm : Rnd => ({ g := fGuard w, t := tType e, rm := rm, d := fD w, a := fA w } : TypedN)
  xForm w <| need (fB w == 0) 2 <| need (tPlain e) 3 <| need (o .mode).regs 4 <| laneChecks w true <|
  need (tType e).isFloat 8 <| needSome (tRm e) (fun _ => true) 9 fun rm => need (!tSat e) 10 <| .ok (.rndi (o rm))

def decTypedU (w e : Nat) (regs : TypedU → Bool) (ty : ETy → Bool) (mk : TypedU → Instr) : Except Reject Instr :=
  let o : TypedU := { g := fGuard w, t := tType e, d := fD w, a := fA w }
  xForm w <| need (fB w == 0) 2 <| need (tPlain e) 3 <| need (regs o) 4 <| laneChecks w true <|
  need (ty o.t) 8 <| need (rmZero (tRm e)) 9 <| need (!tSat e) 10 <| .ok (mk o)

def decCvt (w e : Nat) : Except Reject Instr :=
  let o := fun rm : Rnd =>
    ({ g := fGuard w, t := tType e, u := tType2 e, rm := rm, sat := tSat e, d := fD w, a := fA w } : CvtArgs)
  xForm w <| need (fB w == 0) 2 <| need (tC e == 0 && tClass e == 0) 3 <| need (o .mode).regs 4 <| laneChecks w true <|
  need ((tType e).isElement && ((tType2 e).isElement && tType2 e != tType e)) 8 <|
  needSome (tRm e) (Rnd.fitsCvt (tType e) (tType2 e)) 9 fun rm => .ok (.cvt (o rm))

def decDp4 (w e : Nat) : Except Reject Instr :=
  xForm w <| need (tClass e == 0) 3 <| laneChecks w true <|
  need (tType e == .i32 && (tType2 e).isDp4) 8 <| need (rmZero (tRm e)) 9 <|
  .ok (.dp4 { g := fGuard w, u := tType2 e, sat := tSat e, d := fD w, a := fA w, b := fB w, c := tC e })

def decPrmt (w e : Nat) : Except Reject Instr :=
  xForm w <| need (fld e 22 4 == 0 && fld e 18 4 == 0 && tClass e == 0) 3 <| laneChecks w true <|
  need (rmZero (tRm e)) 9 <| need (!tSat e) 10 <|
  .ok (.prmt { g := fGuard w, d := fD w, a := fA w, b := fB w, c := tC e })

def decSwap (w : Nat) : Except Reject Instr :=
  zForm w <| laneChecks w true <| .ok (.swap { g := fGuard w, d := fD w, a := fA w, m := fB w })

/-! Fields of the M form (R155). -/

def mC (e : Nat) : Fin 64 := reg6 e 26
def mType (e : Nat) : ETy := ETy.ofCode (fld e 22 4)
def mOrd (e : Nat) : Order := Order.ofCode (fld e 20 2)
def mScope (e : Nat) : Option Scope := Scope.ofCode (fld e 17 3)
def mOp (e : Nat) : Nat := fld e 13 4
def mRm (e : Nat) : Option Rnd := Rnd.ofCode (fld e 10 3)
def mSat (e : Nat) : Bool := fld e 9 1 == 1
def mClass (e : Nat) : Nat := fld e 0 9

/-- rm and sat are 0. -/
def mRmSat (e : Nat) (k : Except Reject Instr) : Except Reject Instr :=
  need (rmZero (mRm e)) 9 <| need (!mSat e) 10 k

/-- The order and scope of a load, store, wait, remote copy or put (R156). -/
def mOrdScope (e : Nat) (ordOk : Order → Bool) (limit : Scope) (k : Order → Scope → Except Reject Instr) :
    Except Reject Instr :=
  need (ordOk (mOrd e)) 11 <| needSome (mScope e) (fun s => scopeFits (mOrd e) s limit) 12 fun s => k (mOrd e) s

/-- Order and scope must be 0 (R156, R289). -/
def mNoOrder (e : Nat) (k : Except Reject Instr) : Except Reject Instr :=
  need (mOrd e == .relaxed) 11 <| need (mScope e == some .grp) 12 k

def decLd (w e : Nat) : Except Reject Instr :=
  let o := fun (r : Order) (s : Scope) => ({ g := fGuard w, t := mType e, ord := r, scope := s, d := fD w, a := fA w } : LdArgs)
  xForm w <| need (fB w == 0) 2 <| need (mC e == 0 && mOp e == 0 && mClass e == 0) 3 <|
  need (pairFits (fA w) && regFits (mType e) (fD w)) 4 <| laneChecks w true <| need (mType e).isElement 8 <|
  mRmSat e <| mOrdScope e Order.fitsLoad .die fun r s => .ok (.ld (o r s))

def decSt (w e : Nat) : Except Reject Instr :=
  let o := fun (r : Order) (s : Scope) => ({ g := fGuard w, t := mType e, ord := r, scope := s, a := fA w, b := fB w } : StArgs)
  xForm w <| need (fD w == 0) 2 <| need (mC e == 0 && mOp e == 0 && mClass e == 0) 3 <|
  need (pairFits (fA w) && regFits (mType e) (fB w)) 4 <| laneChecks w true <| need (mType e).isElement 8 <|
  mRmSat e <| mOrdScope e Order.fitsStore .die fun r s => .ok (.st (o r s))

def decAtom (w e : Nat) : Except Reject Instr :=
  let t := mType e
  xForm w <| need (mC e == 0 && mClass e == 0) 3 <|
  need (pairFits (fA w) && regFits t (fD w) && regFits t (fB w)) 4 <| laneChecks w true <| need t.isAtom 8 <|
  needSome (mRm e) (Rnd.fitsAtom t) 9 fun rm => need (!mSat e) 10 <|
  needSome (mScope e) (fun s => s.within .die) 12 fun s =>
  needSome (AtomOp.ofCode (mOp e)) (AtomOp.fits t) 13 fun op =>
  .ok (.atom { g := fGuard w, op := op, t := t, rm := rm, ord := mOrd e, scope := s, d := fD w, a := fA w, b := fB w })

def decCas (w e : Nat) : Except Reject Instr :=
  let t := mType e
  xForm w <| need (mOp e == 0 && mClass e == 0) 3 <|
  need (pairFits (fA w) && regFits t (fD w) && regFits t (fB w) && regFits t (mC e)) 4 <| laneChecks w true <|
  need t.isAtomInt 8 <| mRmSat e <| needSome (mScope e) (fun s => s.within .die) 12 fun s =>
  .ok (.cas { g := fGuard w, t := t, ord := mOrd e, scope := s, d := fD w, a := fA w, b := fB w, c := mC e })

def decDeposit (w : Nat) : Except Reject Instr :=
  zForm w <| need (fD w == 0) 2 <| need (rangeFits (fB w) 4) 4 <| laneChecks w true <|
  .ok (.deposit { g := fGuard w, a := fA w, b := fB w })

/-! The X form (R157). -/

def xFb (e : Nat) : Fin 64 := reg6 e 26
def xSbm (e : Nat) : Fin 64 := reg6 e 20
def xN (e : Nat) : Nat := fld e 18 2
def xRmSat (e : Nat) (k : Except Reject Instr) : Except Reject Instr :=
  need (fld e 15 3 == 0) 9 <| need (fld e 14 1 == 0) 10 k

def decMma (w e : Nat) (rows : Nat) (mk : MmaArgs → Instr) : Except Reject Instr :=
  xForm w <| need (fB w == 0) 2 <| need (decide (xN e < 3) && fld e 11 3 == 0 && fld e 0 11 == 0) 3 <|
  need (pairFits (fD w) && rangeFits (fA w) rows && (xFb e).val % 4 == 0 && pairFits (xSbm e)) 4 <|
  need (fGuard w).legal 5 <| xRmSat e <|
  .ok (mk { g := fGuard w, k := fK w == 1, d := fD w, a := fA w, fb := xFb e, sbm := xSbm e, n := Fin.ofNat 3 (xN e) })

def decMmv (w e : Nat) : Except Reject Instr :=
  xForm w <| need (fB w == 0) 2 <| need (xN e == 1 && fld e 0 11 == 0) 3 <|
  need ((xFb e).val % 4 == 0 && pairFits (xSbm e)) 4 <|
  need (fGuard w).legal 5 <| xRmSat e <|
  .ok (.mmv { g := fGuard w, k := fK w == 1, d := fD w, a := fA w, fb := xFb e, sbm := xSbm e,
              nv := Fin.ofNat 8 (fld e 11 3) })

/-! Scalar forms. -/

/-- A ZI cell (R158, R226): its register form with X = 0, though R11 calls that illegal at opcodes 0x01, 0x02 and 0x0A (log 57), its
immediate form with X = 1. -/
def decSclZI (w e : Nat) (immOk : Bool) (regs : Bool) (regsI : Bool) (r : SclR → Instr) (i : SclI → Instr) :
    Except Reject Instr :=
  if fX w = 0 then
    need (fSub w == 0) 2 <| need regs 4 <| .ok (r { d := fD w, a := fA w, b := fB w })
  else
    need (fB w == 0 && fSub w == 0) 2 <| need immOk 3 <| need regsI 4 <|
    .ok (i { d := fD w, a := fA w, imm := BitVec.ofNat 32 e })

/-- 32-bit scalar arithmetic (R226). -/
def dec32 (w e : Nat) (r : SclR → Instr) (i : SclI → Instr) : Except Reject Instr :=
  decSclZI w e true true true r i
/-- 32-bit scalar shifts (R151, R226). -/
def decShift32 (w e : Nat) (r : SclR → Instr) (i : SclI → Instr) : Except Reject Instr :=
  decSclZI w e (decide (e < 32)) true true r i
/-- 64-bit scalar arithmetic (R227). -/
def dec64 (w e : Nat) (r : SclR → Instr) (i : SclI → Instr) : Except Reject Instr :=
  decSclZI w e true (pairFits (fD w) && pairFits (fA w) && pairFits (fB w)) (pairFits (fD w) && pairFits (fA w)) r i
/-- 64-bit scalar shifts: sb may name any register (R227). -/
def decShift64 (w e : Nat) (r : SclR → Instr) (i : SclI → Instr) : Except Reject Instr :=
  decSclZI w e (decide (e < 64)) (pairFits (fD w) && pairFits (fA w)) (pairFits (fD w) && pairFits (fA w)) r i

/-- SMOV.I32 (R226): with X = 0 its register form, as the ZI cell has it, though R11 calls X = 0 illegal (log 57). -/
def decSmov (w e : Nat) (regs regsI : Bool) (r : SclU → Instr) (i : SclM → Instr) : Except Reject Instr :=
  if fX w = 0 then
    need (fB w == 0 && fSub w == 0) 2 <| need regs 4 <| .ok (r { d := fD w, a := fA w })
  else
    need (fA w == 0 && fB w == 0 && fSub w == 0) 2 <| need regsI 4 <| .ok (i { d := fD w, imm := BitVec.ofNat 32 e })

def decSclU (w : Nat) (regs : Bool) (mk : SclU → Instr) : Except Reject Instr :=
  zForm w <| need (fB w == 0 && fSub w == 0) 2 <| need regs 4 <| .ok (mk { d := fD w, a := fA w })

def decScmp32 (w e : Nat) : Except Reject Instr :=
  if fX w = 0 then
    needSome (Cmp.ofSub (fSub w)) (fun _ => true) 7 fun cc => .ok (.scmpI32 { cc := cc, d := fD w, a := fA w, b := fB w })
  else
    need (fB w == 0) 2 <| needSome (Cmp.ofSub (fSub w)) (fun _ => true) 7 fun cc =>
    .ok (.scmpI32Imm { cc := cc, d := fD w, a := fA w, imm := BitVec.ofNat 32 e })

def decScmp64 (w : Nat) : Except Reject Instr :=
  zForm w <| need (pairFits (fA w) && pairFits (fB w)) 4 <| needSome (Cmp.ofSub (fSub w)) (fun _ => true) 7 fun cc =>
  .ok (.scmpI64 { cc := cc, d := fD w, a := fA w, b := fB w })

/-- BRA: sa and sb are judged after sub, which decides whether they are read (R149, R165). -/
def decBra (w e : Nat) : Except Reject Instr :=
  xForm w <| need (fD w == 0) 2 <| need (e % 4 == 0) 3 <|
  needSome (BraCond.ofSub (fSub w) (fA w) (fB w)) (fun _ => true) 7 fun cc =>
  need (decide (cc.fields = (fSub w, (fA w).val, (fB w).val))) 2 <|
  .ok (.bra { cc := cc, disp := BitVec.ofNat 32 e })

def decCall (w e : Nat) : Except Reject Instr :=
  xForm w <| need (fA w == 0 && fSub w == 0) 2 <| need (e % 4 == 0) 3 <|
  .ok (.call { d := fD w, w := fB w, disp := BitVec.ofNat 32 e })

/-- An instruction whose one operand is sa. -/
def decSa (w : Nat) (regs : Bool) (mk : SReg → Instr) : Except Reject Instr :=
  zForm w <| need (fD w == 0 && fB w == 0 && fSub w == 0) 2 <| need regs 4 <| .ok (mk (fA w))

/-- An instruction with no operand. -/
def decBare (w : Nat) (i : Instr) : Except Reject Instr :=
  zForm w <| need (fld w 0 23 == 0) 2 <| .ok i

/-- An I-form instruction whose primary fields are all reserved. -/
def decImmOnly (w : Nat) (immOk : Bool) (i : Instr) : Except Reject Instr :=
  xForm w <| need (fld w 0 23 == 0) 2 <| need immOk 3 <| .ok i

def decMsplit (w : Nat) : Except Reject Instr :=
  zForm w <| need (fA w == 0 && fB w == 0 && fld w 4 1 == 0) 2 <|
  let o : MsplitArgs := { d := fD w, p := pred3 w 0, neg := fld w 3 1 == 1 }
  need o.ok 7 <| .ok (.msplit o)

/-- SMODE: sd and sa are judged after sub (R165, R237). -/
def decSmode (w : Nat) : Except Reject Instr :=
  zForm w <| need (fB w == 0) 2 <|
  match fSub w with
  | 0 => need (fA w == 0) 2 <| .ok (.smodeRd (fD w))
  | 1 => need (fD w == 0) 2 <| .ok (.smodeWr (fA w))
  | 2 => need (fA w == 0) 2 <| .ok (.smodeClr (fD w))
  | 3 => need (fD w == 0) 2 <| .ok (.smodeRm (fA w))
  | _ => .error (.illegalEncoding 7)

def decSid (w : Nat) : Except Reject Instr :=
  zForm w <| need (fA w == 0 && fB w == 0) 2 <| needSome (SidSel.ofCode (fSub w)) (fun _ => true) 7 fun sel =>
  .ok (.sid { d := fD w, sel := sel })

def decLdarg (w e : Nat) : Except Reject Instr :=
  xForm w <| need (fA w == 0 && fB w == 0 && fSub w == 0) 2 <| need (e % 4 == 0 && decide (e < 64)) 3 <|
  .ok (.ldarg { d := fD w, off := Fin.ofNat 16 (e / 4) })

def decSyswr (w : Nat) : Except Reject Instr :=
  zForm w <| need (fD w == 0 && fSub w == 0) 2 <| need (pairFits (fB w)) 4 <| .ok (.syswr { d := fA w, a := fB w })

def decSld (w e : Nat) : Except Reject Instr :=
  xForm w <| need (fB w == 0 && fSub w == 0) 2 <| need (mC e == 0 && mOp e == 0 && mClass e == 0) 3 <|
  need (pairFits (fA w) && regFits (mType e) (fD w)) 4 <| need (mType e).isElement 8 <|
  mRmSat e <| mOrdScope e Order.fitsLoad .pkg fun r s =>
  .ok (.sld { t := mType e, ord := r, scope := s, d := fD w, a := fA w })

def decSst (w e : Nat) : Except Reject Instr :=
  xForm w <| need (fD w == 0 && fSub w == 0) 2 <| need (mC e == 0 && mOp e == 0 && mClass e == 0) 3 <|
  need (pairFits (fA w) && regFits (mType e) (fB w)) 4 <| need (mType e).isElement 8 <|
  mRmSat e <| mOrdScope e Order.fitsStore .pkg fun r s =>
  .ok (.sst { t := mType e, ord := r, scope := s, a := fA w, b := fB w })

def decSatom (w e : Nat) : Except Reject Instr :=
  let t := mType e
  xForm w <| need (fSub w == 0) 2 <| need (mC e == 0 && mClass e == 0) 3 <|
  need (pairFits (fA w) && regFits t (fD w) && regFits t (fB w)) 4 <| need t.isAtom 8 <|
  needSome (mRm e) (Rnd.fitsAtom t) 9 fun rm => need (!mSat e) 10 <|
  needSome (mScope e) (fun s => s.within .pkg) 12 fun s =>
  needSome (AtomOp.ofCode (mOp e)) (AtomOp.fits t) 13 fun op =>
  .ok (.satom { op := op, t := t, rm := rm, ord := mOrd e, scope := s, d := fD w, a := fA w, b := fB w })

def decScas (w e : Nat) : Except Reject Instr :=
  let t := mType e
  xForm w <| need (fSub w == 0) 2 <| need (mOp e == 0 && mClass e == 0) 3 <|
  need (pairFits (fA w) && regFits t (fD w) && regFits t (fB w) && regFits t (mC e)) 4 <| need t.isAtomInt 8 <|
  mRmSat e <| needSome (mScope e) (fun s => s.within .pkg) 12 fun s =>
  .ok (.scas { t := t, ord := mOrd e, scope := s, d := fD w, a := fA w, b := fB w, c := mC e })

def decFence (w e : Nat) : Except Reject Instr :=
  xForm w <| need (fld w 0 23 == 0) 2 <|
  need (mC e == 0 && fld e 22 4 == 0 && mOp e == 0 && fld e 6 3 == 0) 3 <| mRmSat e <|
  need (mOrd e != .relaxed) 11 <| needSome (mScope e) (fun _ => true) 12 fun s =>
  need (fld e 0 6 != 0) 14 <| .ok (.fence { ord := mOrd e, scope := s, classes := BitVec.ofNat 6 (fld e 0 6) })

def decWaitp (w : Nat) : Except Reject Instr :=
  zForm w <| need (fD w == 0 && fB w == 0) 2 <| needSome (Path.ofCode (fSub w)) (fun _ => true) 7 fun p =>
  .ok (.waitp { path := p, a := fA w })

def decWaitv (w e : Nat) : Except Reject Instr :=
  let t := mType e
  xForm w <| need (fSub w == 0) 2 <| need (mC e == 0 && mClass e == 0) 3 <|
  need (regFits t (fD w) && pairFits (fA w) && regFits t (fB w)) 4 <| need t.isAtomInt 8 <|
  mRmSat e <| mOrdScope e Order.fitsLoad .pkg fun r s =>
  needSome (Cmp.ofCode (mOp e)) (fun _ => true) 13 fun cc =>
  .ok (.waitv { t := t, ord := r, scope := s, cc := cc, d := fD w, a := fA w, b := fB w })

def decWaitvm (w e : Nat) : Except Reject Instr :=
  let t := mType e
  xForm w <| need (fSub w == 0) 2 <| need (mClass e == 0) 3 <|
  need (regFits t (fD w) && pairFits (fA w) && regFits t (fB w) && regFits t (mC e)) 4 <| need t.isAtomInt 8 <|
  mRmSat e <| mOrdScope e Order.fitsLoad .pkg fun r s =>
  needSome (Cmp.ofCode (mOp e)) (fun _ => true) 13 fun cc =>
  .ok (.waitvm { t := t, ord := r, scope := s, cc := cc, d := fD w, a := fA w, b := fB w, c := mC e })

/-- BAR: a count of 0 or above 16 is judged with the reserved bits (R286). -/
def decBar (w e : Nat) : Except Reject Instr :=
  xForm w <| need (fA w == 0 && fB w == 0 && fSub w == 0) 2 <|
  need (fld e 9 7 == 0 && decide (1 ≤ fld e 4 5) && decide (fld e 4 5 ≤ 16)) 3 <|
  .ok (.bar { d := fD w, timeout := BitVec.ofNat 16 (fld e 16 16), count := Fin.ofNat 16 (fld e 4 5 - 1),
              barrier := Fin.ofNat 16 (fld e 0 4) })

/-- Every field of the extension but c is reserved or 0 (R156). -/
def mBare (e : Nat) : Bool := fld e 22 4 == 0 && mOp e == 0 && mClass e == 0

def decCopy (w e : Nat) (mk : SclR → Instr) : Except Reject Instr :=
  xForm w <| need (fSub w == 0) 2 <| need (mC e == 0 && mBare e) 3 <| need (pairFits (fD w) && pairFits (fA w)) 4 <|
  mRmSat e <| mNoOrder e <| .ok (mk { d := fD w, a := fA w, b := fB w })

def decGather (w e : Nat) : Except Reject Instr :=
  xForm w <| need (fSub w == 0) 2 <| need (mBare e) 3 <|
  need (pairFits (fD w) && pairFits (fA w) && pairFits (fB w) && rangeFits (mC e) 3) 4 <|
  mRmSat e <| mNoOrder e <| .ok (.gather { d := fD w, a := fA w, b := fB w, c := mC e })

def decXpand (w e : Nat) : Except Reject Instr :=
  xForm w <| need (fSub w == 0) 2 <| need (mOp e == 0 && mClass e == 0) 3 <|
  need (pairFits (fD w) && pairFits (fA w) && pairFits (mC e)) 4 <| need (mType e).isXpand 8 <|
  needSome (mRm e) (fun _ => true) 9 fun rm => mNoOrder e <|
  .ok (.xpand { t := mType e, rm := rm, sat := mSat e, d := fD w, a := fA w, b := fB w, c := mC e })

def decRput (w e : Nat) (limit : Scope) (mk : RputArgs → Instr) : Except Reject Instr :=
  xForm w <| need (fSub w == 0) 2 <| need (mBare e) 3 <|
  need (pairFits (fD w) && pairFits (fA w) && pairFits (mC e)) 4 <|
  mRmSat e <| mOrdScope e Order.fitsStore limit fun r s =>
  .ok (mk { ord := r, scope := s, d := fD w, a := fA w, b := fB w, c := mC e })

def decStream (w e : Nat) : Except Reject Instr :=
  xForm w <| need (fD w == 0 && fB w == 0 && fSub w == 0) 2 <| need (mC e == 0 && mBare e) 3 <| need (pairFits (fA w)) 4 <|
  mRmSat e <| mNoOrder e <| .ok (.stream (fA w))

/-- A flag field of a header: 0 to 11, or 0xF for none; 12 to 14 are illegal (R130). -/
def flagField (n : Nat) : Option (Option (Fin 12)) :=
  if n < 12 then some (some (Fin.ofNat 12 n)) else if n = 15 then some none else none

/-- The clause header (R130). X = 1 gives code 0x1, a flag field of 12 to 14 code 0x2 (R165). -/
def decHeader (w : Nat) : Except Reject Instr :=
  zForm w <| needSome (flagField (fld w 7 4)) (fun _ => true) 2 fun r =>
  needSome (flagField (fld w 3 4)) (fun _ => true) 2 fun s =>
  .ok (.clauseHeader { wait := BitVec.ofNat 12 (fld w 11 12), rflag := r, sflag := s, yield := Fin.ofNat 8 (fld w 0 3) })

/-- The lane map (R160). -/
def decodeLane (w e : Nat) : Except Reject Instr :=
  match fOp w with
  | 0x01 => decLaneZI w e .addI32 .addI32Imm
  | 0x02 => decLaneZI w e .subI32 .subI32Imm
  | 0x03 => decLaneZI w e .mulI32 .mulI32Imm
  | 0x04 => decLaneZI w e .mulhiI32 .mulhiI32Imm
  | 0x05 => decLaneZI w e .mulhiN32 .mulhiN32Imm
  | 0x06 => decLaneZI w e .minI32 .minI32Imm
  | 0x07 => decLaneZI w e .maxI32 .maxI32Imm
  | 0x08 => decLaneZI w e .minN32 .minN32Imm
  | 0x09 => decLaneZI w e .maxN32 .maxN32Imm
  | 0x0A => decLaneZI w e .and .andImm
  | 0x0B => decLaneZI w e .or .orImm
  | 0x0C => decLaneZI w e .xor .xorImm
  | 0x0D => decLaneZI w e .andn .andnImm
  | 0x0E => decLaneShift w e .shl .shlImm
  | 0x0F => decLaneShift w e .shrN32 .shrN32Imm
  | 0x10 => decLaneShift w e .shrI32 .shrI32Imm
  | 0x11 => decLaneShift w e .rol .rolImm
  | 0x12 => zForm w <| decLaneU w .popc
  | 0x13 => zForm w <| decLaneU w .clz
  | 0x14 => zForm w <| decLaneU w .brev
  | 0x15 => decMov w e
  | 0x16 => zForm w <| decLaneU w .absI32
  | 0x17 => zForm w <| decLaneU w .negI32
  | 0x18 => decCmp w e .seteqI32 .seteqI32Imm
  | 0x19 => decCmp w e .setneI32 .setneI32Imm
  | 0x1A => decCmp w e .setltI32 .setltI32Imm
  | 0x1B => decCmp w e .setleI32 .setleI32Imm
  | 0x1C => decCmp w e .setltN32 .setltN32Imm
  | 0x1D => decCmp w e .setleN32 .setleN32Imm
  | 0x1E => decCmp w e .setgtI32 .setgtI32Imm
  | 0x1F => decCmp w e .setgtN32 .setgtN32Imm
  | 0x20 => decPredU w .pmov
  | 0x21 => decPredU w .pnot
  | 0x22 => decPredB w .pand
  | 0x23 => decPredB w .por
  | 0x24 => decPredB w .pxor
  | 0x25 => decPtoi w
  | 0x26 => decLid w
  | 0x28 => decTypedB w e (fun o => o.t.isInt || o.t.isFloat) Rnd.fitsFloat .addTyped
  | 0x29 => decTypedB w e (fun o => o.t.isInt || o.t.isFloat) Rnd.fitsFloat .subTyped
  | 0x2A => decTypedB w e (fun o => o.t.isInt || o.t.isFloat) Rnd.fitsFloat .mulTyped
  | 0x2B => decMad w e
  | 0x2C => decTypedP w e (fun t => t.isInt || t.isFloat) .minTyped
  | 0x2D => decTypedP w e (fun t => t.isInt || t.isFloat) .maxTyped
  | 0x2E => decSetcc w e
  | 0x2F => decTypedShift w e
  | 0x30 => decTypedS w e .negTyped
  | 0x31 => decTypedS w e .absTyped
  | 0x32 => decTypedB w e (fun o => o.t.isFloat) (fun _ _ => true) .div
  | 0x33 => decSqrt w e
  | 0x34 => decCvt w e
  | 0x35 => decRndi w e
  | 0x36 => decTypedU w e (fun o => regFits o.t o.a) ETy.isFloat .fclass
  | 0x38 => decTypedU w e TypedU.regs ETy.isSpecial .sin
  | 0x39 => decTypedU w e TypedU.regs ETy.isSpecial .cos
  | 0x3A => decTypedU w e TypedU.regs ETy.isSpecial .rcp
  | 0x3B => decTypedU w e TypedU.regs ETy.isSpecial .rsq
  | 0x3C => decTypedU w e TypedU.regs ETy.isSpecial .exp2
  | 0x3D => decTypedU w e TypedU.regs ETy.isSpecial .log2
  | 0x3E => decDp4 w e
  | 0x40 => zForm w <| decLaneR w .shfl
  | 0x41 => decSwap w
  | 0x42 => decLaneZI w e .bcast .bcastImm
  | 0x43 => decLaneZI w e .rot .rotImm
  | 0x44 => decPrmt w e
  | 0x45 => zForm w <| decLaneR w .pack
  | 0x48 => decLd w e
  | 0x49 => decSt w e
  | 0x4A => decAtom w e
  | 0x4B => decCas w e
  | 0x50 => decMma w e 16 .mma
  | 0x51 => decMmv w e
  | 0x52 => decMma w e 12 .mmas
  | 0x58 => decDeposit w
  | _ => .error .illegalInstruction

/-- The scalar map (R161). -/
def decodeScalar (w e : Nat) : Except Reject Instr :=
  match fOp w with
  | 0x01 => decSmov w e true true .smovI32 .smovI32Imm
  | 0x02 => dec32 w e .saddI32 .saddI32Imm
  | 0x03 => dec32 w e .ssubI32 .ssubI32Imm
  | 0x04 => dec32 w e .smulI32 .smulI32Imm
  | 0x05 => dec32 w e .smulhiI32 .smulhiI32Imm
  | 0x06 => dec32 w e .smulhiN32 .smulhiN32Imm
  | 0x07 => dec32 w e .sminI32 .sminI32Imm
  | 0x08 => dec32 w e .smaxI32 .smaxI32Imm
  | 0x09 => decShift32 w e .sshl .sshlImm
  | 0x0A => decShift32 w e .sshrN32 .sshrN32Imm
  | 0x0B => decShift32 w e .sshrI32 .sshrI32Imm
  | 0x0C => dec32 w e .sand .sandImm
  | 0x0D => dec32 w e .sor .sorImm
  | 0x0E => dec32 w e .sxor .sxorImm
  | 0x0F => dec32 w e .sandn .sandnImm
  | 0x10 => dec32 w e .sminN32 .sminN32Imm
  | 0x11 => dec32 w e .smaxN32 .smaxN32Imm
  | 0x12 => decSclU w true .spopc
  | 0x13 => decSclU w true .sclz
  | 0x14 => decScmp32 w e
  | 0x18 => decSmov w e (pairFits (fD w) && pairFits (fA w)) (pairFits (fD w)) .smovI64 .smovI64Imm
  | 0x19 => dec64 w e .saddI64 .saddI64Imm
  | 0x1A => dec64 w e .ssubI64 .ssubI64Imm
  | 0x1B => dec64 w e .smulI64 .smulI64Imm
  | 0x1C => decShift64 w e .sshlN64 .sshlN64Imm
  | 0x1D => decShift64 w e .sshrN64 .sshrN64Imm
  | 0x1E => decScmp64 w
  | 0x20 => decBra w e
  | 0x21 => decCall w e
  | 0x22 => decSa w true .ret
  | 0x23 => decSa w true .join
  | 0x24 => decMsplit w
  | 0x25 => decSa w true .melse
  | 0x26 => decBare w .regang
  | 0x27 => decSa w true .splane
  | 0x28 => decBare w .yield
  | 0x29 => decBare w .exit
  | 0x2A => decSmode w
  | 0x2B => decSid w
  | 0x2C => decLdarg w e
  | 0x2D => decImmOnly w true (.sigchk (BitVec.ofNat 32 e))
  | 0x2E => decBare w .ienter
  | 0x2F => decImmOnly w (decide (e < 65536)) (.trap (BitVec.ofNat 16 e))
  | 0x30 => decSld w e
  | 0x31 => decSst w e
  | 0x32 => decSatom w e
  | 0x33 => decScas w e
  | 0x34 => decFence w e
  | 0x35 => decWaitp w
  | 0x36 => decWaitv w e
  | 0x37 => decBar w e
  | 0x38 => decCopy w e .cpin
  | 0x39 => decCopy w e .cpout
  | 0x3A => decGather w e
  | 0x3B => decXpand w e
  | 0x3C => decRput w e .pkg .rcopy
  | 0x3D => decRput w e .die .put
  | 0x3E => decStream w e
  | 0x40 => decSa w true .vatset
  | 0x41 => decSa w (pairFits (fA w)) .relaunch
  | 0x48 => decBare w .brk
  | 0x49 => decImmOnly w true (.mark (BitVec.ofNat 32 e))
  | 0x4A => decSa w (pairFits (fA w)) .patchreq
  | 0x4B => decSa w (pairFits (fA w)) .tclk
  | 0x4C => decSclU w (pairFits (fD w)) .sysrd
  | 0x4D => decSyswr w
  | 0x4E => decWaitvm w e
  | 0x7F => decHeader w
  | _ => .error .illegalInstruction

/-- The instruction of primary word w with extension word e (0 when X = 0), both below 2^32 (R141, R165). -/
def decode (w e : Nat) : Except Reject Instr :=
  if fld w 31 1 = 0 then decodeLane w e else decodeScalar w e

/-- A little-endian 32-bit word (R5). -/
def leWord (b0 b1 b2 b3 : Byte) : Nat := b0.toNat + 256 * b1.toNat + 65536 * b2.toNat + 16777216 * b3.toNat

/-- The instruction that a list of bytes begins with, and the bytes after it. Bytes that end before the primary word,
or before an extension word that X = 1 calls for, are an illegal instruction (R142). -/
def decodeBytes : List Byte → Except Reject (Instr × List Byte)
  | b0 :: b1 :: b2 :: b3 :: rest =>
    let w := leWord b0 b1 b2 b3
    if fX w = 0 then
      match decode w 0 with
      | .ok i => .ok (i, rest)
      | .error r => .error r
    else
      match rest with
      | c0 :: c1 :: c2 :: c3 :: rest' =>
        match decode w (leWord c0 c1 c2 c3) with
        | .ok i => .ok (i, rest')
        | .error r => .error r
      | _ => .error .illegalInstruction
  | _ => .error .illegalInstruction

/-- The bytes of a word as the machine stores it (R5, R141). -/
def wordBytes (w : Nat) : List Byte :=
  [BitVec.ofNat 8 w, BitVec.ofNat 8 (w / 256), BitVec.ofNat 8 (w / 65536), BitVec.ofNat 8 (w / 16777216)]

/-- What the decoder reads from an instruction whose bits are w, bit 0 the least significant of its first word, the
second word in bits 63-32; bits above nbits are 0. -/
def decodeTableWord (nbits w : Nat) : Option Instr :=
  let v := w % 2 ^ nbits
  match decodeBytes (wordBytes (v % 2 ^ 32) ++ wordBytes (v / 2 ^ 32 % 2 ^ 32)) with
  | .ok (i, _) => some i
  | .error _ => none

/-! The encoder, from the same tables. -/

/-- The primary word of a lane instruction (R198). -/
def laneWord (x op d a b : Nat) (g : Guard) (k : Nat) : Nat :=
  x * 2 ^ 30 + op * 2 ^ 23 + d * 2 ^ 17 + a * 2 ^ 11 + b * 2 ^ 5 + g.pred.val * 2 ^ 2 + (if g.neg then 2 else 0) + k

/-- The primary word of a scalar instruction (R223). -/
def sclWord (x op d a b sub : Nat) : Nat :=
  2 ^ 31 + x * 2 ^ 30 + op * 2 ^ 23 + d * 2 ^ 17 + a * 2 ^ 11 + b * 2 ^ 5 + sub

/-- The T form (R152). -/
def tWord (c : Nat) (t : ETy) (t2 : Nat) (rm : Rnd) (sat : Bool) (cls : Nat) : Nat :=
  c * 2 ^ 26 + t.code * 2 ^ 22 + t2 * 2 ^ 18 + rm.code * 2 ^ 15 + (if sat then 2 ^ 14 else 0) + cls

/-- The M form (R155). -/
def mWord (c t : Nat) (ord : Order) (scope : Scope) (op : Nat) (rm : Rnd) (sat : Bool) (cls : Nat) : Nat :=
  c * 2 ^ 26 + t * 2 ^ 22 + ord.code * 2 ^ 20 + scope.rank * 2 ^ 17 + op * 2 ^ 13 + rm.code * 2 ^ 10
    + (if sat then 2 ^ 9 else 0) + cls

/-- The X form (R157). -/
def xWord (fb sbm n nv : Nat) : Nat := fb * 2 ^ 26 + sbm * 2 ^ 20 + n * 2 ^ 18 + nv * 2 ^ 11

def flagCode : Option (Fin 12) → Nat
  | some f => f.val
  | none => 15

def LaneR.words (op : Nat) (o : LaneR) : List Nat := [laneWord 0 op o.d o.a o.b o.g 0]
def LaneI.words (op : Nat) (o : LaneI) : List Nat := [laneWord 1 op o.d o.a 0 o.g 0, o.imm.toNat]
def LaneU.words (op : Nat) (o : LaneU) : List Nat := [laneWord 0 op o.d o.a 0 o.g 0]
def CmpR.words (op : Nat) (o : CmpR) : List Nat := [laneWord 0 op o.pd o.a o.b o.g 0]
def CmpI.words (op : Nat) (o : CmpI) : List Nat := [laneWord 1 op o.pd o.a 0 o.g 0, o.imm.toNat]
def PredU.words (op : Nat) (o : PredU) : List Nat := [laneWord 0 op o.pd o.pa 0 o.g 0]
def PredB.words (op : Nat) (o : PredB) : List Nat := [laneWord 0 op o.pd o.pa o.pb o.g 0]
def TypedB.words (op : Nat) (o : TypedB) : List Nat := [laneWord 1 op o.d o.a o.b o.g 0, tWord 0 o.t 0 o.rm o.sat 0]
def TypedP.words (op cls : Nat) (o : TypedP) : List Nat :=
  [laneWord 1 op o.d o.a o.b o.g 0, tWord 0 o.t 0 .mode false cls]
def TypedS.words (op : Nat) (o : TypedS) : List Nat := [laneWord 1 op o.d o.a 0 o.g 0, tWord 0 o.t 0 .mode o.sat 0]
def TypedU.words (op : Nat) (o : TypedU) : List Nat := [laneWord 1 op o.d o.a 0 o.g 0, tWord 0 o.t 0 .mode false 0]
def MmaArgs.words (op : Nat) (o : MmaArgs) : List Nat :=
  [laneWord 1 op o.d o.a 0 o.g (if o.k then 1 else 0), xWord o.fb o.sbm o.n 0]
def SclR.words (op : Nat) (o : SclR) : List Nat := [sclWord 0 op o.d o.a o.b 0]
def SclI.words (op : Nat) (o : SclI) : List Nat := [sclWord 1 op o.d o.a 0 0, o.imm.toNat]
def SclU.words (op : Nat) (o : SclU) : List Nat := [sclWord 0 op o.d o.a 0 0]
def SclM.words (op : Nat) (o : SclM) : List Nat := [sclWord 1 op o.d 0 0 0, o.imm.toNat]
def saWords (op : Nat) (a : SReg) : List Nat := [sclWord 0 op 0 a 0 0]
def SclR.copyWords (op : Nat) (o : SclR) : List Nat :=
  [sclWord 1 op o.d o.a o.b 0, mWord 0 0 .relaxed .grp 0 .mode false 0]
def RputArgs.words (op : Nat) (o : RputArgs) : List Nat :=
  [sclWord 1 op o.d o.a o.b 0, mWord o.c 0 o.ord o.scope 0 .mode false 0]

/-- The words of an instruction, primary word first; none for a step without an encoding. -/
def encode : Instr → List Nat
  | .launchPacket _ => []
  | .launchDispatch _ => []
  | .install _ => []
  | .eventSend _ => []
  | .teamPlacement _ => []
  | .clauseFill _ => []
  | .textPageVerify _ => []
  | .roundRobinTurn _ => []
  | .yieldDeferralEnd _ => []
  | .variableLatencyResult _ => []
  | .memoryAccessReturn _ => []
  | .copyReturn _ => []
  | .parkedAccessReplay _ => []
  | .rcopyLanding _ => []
  | .putLanding _ => []
  | .heldPutDelivery _ => []
  | .tileDelivery _ => []
  | .accumulatorWrite _ => []
  | .barrierTimeout _ => []
  | .waitvReread _ => []
  | .teamSwap _ => []
  | .swapRestore _ => []
  | .groupEnd _ => []
  | .launchComplete _ => []
  | .collapse _ => []
  | .eccError _ => []
  | .clusterCheckDrain _ => []
  | .thermalTrip _ => []
  | .powerOn _ => []
  | .tileStopSave _ => []
  | .wheyEntry _ => []
  | .saveSeal _ => []
  | .tileRestore _ => []
  | .inFieldScanTest _ => []
  | .scanDrainEnd _ => []
  | .scanPatternRunEnd _ => []
  | .scanTestAbort _ => []
  | .tileStart _ => []
  | .migrateMove _ => []
  | .migrateProtect _ => []
  | .migrateReplicate _ => []
  | .resetCompleteEvent _ => []
  | .dieResetComplete _ => []
  | .clauseHeader o =>
    [2 ^ 31 + 0x7F * 2 ^ 23 + o.wait.toNat * 2 ^ 11 + flagCode o.rflag * 2 ^ 7 + flagCode o.sflag * 2 ^ 3 + o.yield.val]
  | .addI32 o => o.words 0x01
  | .addI32Imm o => o.words 0x01
  | .subI32 o => o.words 0x02
  | .subI32Imm o => o.words 0x02
  | .mulI32 o => o.words 0x03
  | .mulI32Imm o => o.words 0x03
  | .mulhiI32 o => o.words 0x04
  | .mulhiI32Imm o => o.words 0x04
  | .mulhiN32 o => o.words 0x05
  | .mulhiN32Imm o => o.words 0x05
  | .minI32 o => o.words 0x06
  | .minI32Imm o => o.words 0x06
  | .maxI32 o => o.words 0x07
  | .maxI32Imm o => o.words 0x07
  | .minN32 o => o.words 0x08
  | .minN32Imm o => o.words 0x08
  | .maxN32 o => o.words 0x09
  | .maxN32Imm o => o.words 0x09
  | .and o => o.words 0x0A
  | .andImm o => o.words 0x0A
  | .or o => o.words 0x0B
  | .orImm o => o.words 0x0B
  | .xor o => o.words 0x0C
  | .xorImm o => o.words 0x0C
  | .andn o => o.words 0x0D
  | .andnImm o => o.words 0x0D
  | .shl o => o.words 0x0E
  | .shlImm o => o.words 0x0E
  | .shrN32 o => o.words 0x0F
  | .shrN32Imm o => o.words 0x0F
  | .shrI32 o => o.words 0x10
  | .shrI32Imm o => o.words 0x10
  | .rol o => o.words 0x11
  | .rolImm o => o.words 0x11
  | .popc o => o.words 0x12
  | .clz o => o.words 0x13
  | .brev o => o.words 0x14
  | .mov o => o.words 0x15
  | .movImm o => [laneWord 1 0x15 o.d 0 0 o.g 0, o.imm.toNat]
  | .absI32 o => o.words 0x16
  | .negI32 o => o.words 0x17
  | .seteqI32 o => o.words 0x18
  | .seteqI32Imm o => o.words 0x18
  | .setneI32 o => o.words 0x19
  | .setneI32Imm o => o.words 0x19
  | .setltI32 o => o.words 0x1A
  | .setltI32Imm o => o.words 0x1A
  | .setleI32 o => o.words 0x1B
  | .setleI32Imm o => o.words 0x1B
  | .setltN32 o => o.words 0x1C
  | .setltN32Imm o => o.words 0x1C
  | .setleN32 o => o.words 0x1D
  | .setleN32Imm o => o.words 0x1D
  | .setgtI32 o => o.words 0x1E
  | .setgtI32Imm o => o.words 0x1E
  | .setgtN32 o => o.words 0x1F
  | .setgtN32Imm o => o.words 0x1F
  | .pmov o => o.words 0x20
  | .pnot o => o.words 0x21
  | .pand o => o.words 0x22
  | .por o => o.words 0x23
  | .pxor o => o.words 0x24
  | .ptoi o => [laneWord 0 0x25 o.d o.pa 0 o.g 0]
  | .lid o => [laneWord 0 0x26 o.d o.sel.code 0 o.g 0]
  | .addTyped o => o.words 0x28
  | .subTyped o => o.words 0x29
  | .mulTyped o => o.words 0x2A
  | .mad o => [laneWord 1 0x2B o.d o.a o.b o.g 0, tWord o.c o.t 0 o.rm o.sat 0]
  | .minTyped o => o.words 0x2C 0
  | .maxTyped o => o.words 0x2D 0
  | .setcc o => [laneWord 1 0x2E o.pd o.a o.b o.g 0, tWord 0 o.t 0 .mode false o.cc.code]
  | .shlTyped o => o.words 0x2F 0
  | .shrTyped o => o.words 0x2F 1
  | .negTyped o => o.words 0x30
  | .absTyped o => o.words 0x31
  | .div o => o.words 0x32
  | .sqrt o => [laneWord 1 0x33 o.d o.a 0 o.g 0, tWord 0 o.t 0 o.rm o.sat 0]
  | .cvt o => [laneWord 1 0x34 o.d o.a 0 o.g 0, tWord 0 o.t o.u.code o.rm o.sat 0]
  | .rndi o => [laneWord 1 0x35 o.d o.a 0 o.g 0, tWord 0 o.t 0 o.rm false 0]
  | .fclass o => o.words 0x36
  | .sin o => o.words 0x38
  | .cos o => o.words 0x39
  | .rcp o => o.words 0x3A
  | .rsq o => o.words 0x3B
  | .exp2 o => o.words 0x3C
  | .log2 o => o.words 0x3D
  | .dp4 o => [laneWord 1 0x3E o.d o.a o.b o.g 0, tWord o.c .i32 o.u.code .mode o.sat 0]
  | .shfl o => o.words 0x40
  | .swap o => [laneWord 0 0x41 o.d o.a o.m o.g 0]
  | .bcast o => o.words 0x42
  | .bcastImm o => o.words 0x42
  | .rot o => o.words 0x43
  | .rotImm o => o.words 0x43
  | .prmt o => [laneWord 1 0x44 o.d o.a o.b o.g 0, tWord o.c .i8 0 .mode false 0]
  | .pack o => o.words 0x45
  | .ld o => [laneWord 1 0x48 o.d o.a 0 o.g 0, mWord 0 o.t.code o.ord o.scope 0 .mode false 0]
  | .st o => [laneWord 1 0x49 0 o.a o.b o.g 0, mWord 0 o.t.code o.ord o.scope 0 .mode false 0]
  | .atom o => [laneWord 1 0x4A o.d o.a o.b o.g 0, mWord 0 o.t.code o.ord o.scope o.op.code o.rm false 0]
  | .cas o => [laneWord 1 0x4B o.d o.a o.b o.g 0, mWord o.c o.t.code o.ord o.scope 0 .mode false 0]
  | .deposit o => [laneWord 0 0x58 0 o.a o.b o.g 0]
  | .mma o => o.words 0x50
  | .mmv o => [laneWord 1 0x51 o.d o.a 0 o.g (if o.k then 1 else 0), xWord o.fb o.sbm 1 o.nv]
  | .mmas o => o.words 0x52
  | .smovI32 o => o.words 0x01
  | .smovI32Imm o => o.words 0x01
  | .saddI32 o => o.words 0x02
  | .saddI32Imm o => o.words 0x02
  | .ssubI32 o => o.words 0x03
  | .ssubI32Imm o => o.words 0x03
  | .smulI32 o => o.words 0x04
  | .smulI32Imm o => o.words 0x04
  | .smulhiI32 o => o.words 0x05
  | .smulhiI32Imm o => o.words 0x05
  | .smulhiN32 o => o.words 0x06
  | .smulhiN32Imm o => o.words 0x06
  | .sminI32 o => o.words 0x07
  | .sminI32Imm o => o.words 0x07
  | .smaxI32 o => o.words 0x08
  | .smaxI32Imm o => o.words 0x08
  | .sshl o => o.words 0x09
  | .sshlImm o => o.words 0x09
  | .sshrN32 o => o.words 0x0A
  | .sshrN32Imm o => o.words 0x0A
  | .sshrI32 o => o.words 0x0B
  | .sshrI32Imm o => o.words 0x0B
  | .sand o => o.words 0x0C
  | .sandImm o => o.words 0x0C
  | .sor o => o.words 0x0D
  | .sorImm o => o.words 0x0D
  | .sxor o => o.words 0x0E
  | .sxorImm o => o.words 0x0E
  | .sandn o => o.words 0x0F
  | .sandnImm o => o.words 0x0F
  | .sminN32 o => o.words 0x10
  | .sminN32Imm o => o.words 0x10
  | .smaxN32 o => o.words 0x11
  | .smaxN32Imm o => o.words 0x11
  | .spopc o => o.words 0x12
  | .sclz o => o.words 0x13
  | .scmpI32 o => [sclWord 0 0x14 o.d o.a o.b (o.cc.code + 5)]
  | .scmpI32Imm o => [sclWord 1 0x14 o.d o.a 0 (o.cc.code + 5), o.imm.toNat]
  | .smovI64 o => o.words 0x18
  | .smovI64Imm o => o.words 0x18
  | .saddI64 o => o.words 0x19
  | .saddI64Imm o => o.words 0x19
  | .ssubI64 o => o.words 0x1A
  | .ssubI64Imm o => o.words 0x1A
  | .smulI64 o => o.words 0x1B
  | .smulI64Imm o => o.words 0x1B
  | .sshlN64 o => o.words 0x1C
  | .sshlN64Imm o => o.words 0x1C
  | .sshrN64 o => o.words 0x1D
  | .sshrN64Imm o => o.words 0x1D
  | .scmpI64 o => [sclWord 0 0x1E o.d o.a o.b (o.cc.code + 5)]
  | .bra o => [sclWord 1 0x20 0 o.cc.fields.2.1 o.cc.fields.2.2 o.cc.fields.1, o.disp.toNat]
  | .call o => [sclWord 1 0x21 o.d 0 o.w 0, o.disp.toNat]
  | .ret o => saWords 0x22 o
  | .join o => saWords 0x23 o
  | .msplit o => [sclWord 0 0x24 o.d 0 0 (o.p.val + if o.neg then 8 else 0)]
  | .melse o => saWords 0x25 o
  | .splane o => saWords 0x27 o
  | .smodeRd o => [sclWord 0 0x2A o 0 0 0]
  | .smodeWr o => [sclWord 0 0x2A 0 o 0 1]
  | .smodeClr o => [sclWord 0 0x2A o 0 0 2]
  | .smodeRm o => [sclWord 0 0x2A 0 o 0 3]
  | .sid o => [sclWord 0 0x2B o.d 0 0 o.sel.code]
  | .ldarg o => [sclWord 1 0x2C o.d 0 0 0, 4 * o.off.val]
  | .sigchk n => [sclWord 1 0x2D 0 0 0 0, n.toNat]
  | .trap n => [sclWord 1 0x2F 0 0 0 0, n.toNat]
  | .mark n => [sclWord 1 0x49 0 0 0 0, n.toNat]
  | .patchreq o => saWords 0x4A o
  | .tclk o => saWords 0x4B o
  | .sysrd o => o.words 0x4C
  | .syswr o => [sclWord 0 0x4D 0 o.d o.a 0]
  | .sld o => [sclWord 1 0x30 o.d o.a 0 0, mWord 0 o.t.code o.ord o.scope 0 .mode false 0]
  | .sst o => [sclWord 1 0x31 0 o.a o.b 0, mWord 0 o.t.code o.ord o.scope 0 .mode false 0]
  | .satom o => [sclWord 1 0x32 o.d o.a o.b 0, mWord 0 o.t.code o.ord o.scope o.op.code o.rm false 0]
  | .scas o => [sclWord 1 0x33 o.d o.a o.b 0, mWord o.c o.t.code o.ord o.scope 0 .mode false 0]
  | .fence o => [sclWord 1 0x34 0 0 0 0, mWord 0 0 o.ord o.scope 0 .mode false o.classes.toNat]
  | .waitp o => [sclWord 0 0x35 0 o.a 0 o.path.code]
  | .waitv o => [sclWord 1 0x36 o.d o.a o.b 0, mWord 0 o.t.code o.ord o.scope o.cc.code .mode false 0]
  | .waitvm o => [sclWord 1 0x4E o.d o.a o.b 0, mWord o.c o.t.code o.ord o.scope o.cc.code .mode false 0]
  | .bar o => [sclWord 1 0x37 o.d 0 0 0, o.timeout.toNat * 2 ^ 16 + (o.count.val + 1) * 2 ^ 4 + o.barrier.val]
  | .cpin o => o.copyWords 0x38
  | .cpout o => o.copyWords 0x39
  | .gather o => [sclWord 1 0x3A o.d o.a o.b 0, mWord o.c 0 .relaxed .grp 0 .mode false 0]
  | .xpand o => [sclWord 1 0x3B o.d o.a o.b 0, mWord o.c o.t.code .relaxed .grp 0 o.rm o.sat 0]
  | .rcopy o => o.words 0x3C
  | .put o => o.words 0x3D
  | .stream o => [sclWord 1 0x3E 0 o 0 0, mWord 0 0 .relaxed .grp 0 .mode false 0]
  | .vatset o => saWords 0x40 o
  | .relaunch o => saWords 0x41 o
  | .bulkDataIngress _ => []
  | .spillFillComplete _ => []
  | .lateSourceRead _ => []
  | .patchVersioned => []
  | .patchInPlace => []
  | .accessControlEntryWrite => []
  | .partitionDescriptorWrite => []
  | .partitionControlWrite => []
  | .scratchpadAllocationWrite => []
  | .rootTableWrite => []
  | .keySlotLoad => []
  | .faultRingWrite => []
  | .traceRingWrite => []
  | .swapPolicySet => []
  | .coreRetireGrantSet => []
  | .invalidateRange => []
  | .partitionReset => []
  | .dieReset => []
  | .clusterRebuild => []
  | .clusterRelease => []
  | .debugResume => []
  | .debugStep => []
  | .debugTerminate => []
  | .patchSubmit => []
  | .powerLimitSet => []
  | .counterRead => []
  | .attestationReport => []
  | .thermalResume => []
  | .journalClear => []
  | .ownerEndpointChange => []
  | .dieOutOfService => []
  | .migrationSubmit => []
  | .splinterPoolSet => []
  | .swapPoolSet => []
  | .unknownOp => []
  | .regang => [sclWord 0 0x26 0 0 0 0]
  | .yield => [sclWord 0 0x28 0 0 0 0]
  | .exit => [sclWord 0 0x29 0 0 0 0]
  | .ienter => [sclWord 0 0x2E 0 0 0 0]
  | .brk => [sclWord 0 0x48 0 0 0 0]
  | .powerLoss => []

/-- The bytes of an instruction in memory. -/
def encodeBytes (i : Instr) : List Byte := (encode i).flatMap wordBytes

/-- A row of the table that has an encoding. -/
def Instr.encodable (i : Instr) : Bool := !(encode i).isEmpty

end Sys2Proof
end

