-- ==== Sys2Proof/Config.lean ====
section
/-! DEFINITION. What the package as built fixes (R14, R86, R109), and the values the spec leaves open, as constants that
no proof can see. A free value is applied to a count of State that rises with each use, or to what it depends on. -/

namespace Sys2Proof.Config

/-- Generation of a compute die: 6 for dies 0 to 3, 5 for dies 4 to 7 (R12). -/
def generation (die : Nat) : Nat := if die < 4 then 6 else 5

/-- Cores of a compute die (R14). -/
def cores (die : Nat) : Nat := if die < 4 then 160 else 128

/-- Block shared memory of a core in KiB (R14). -/
def sharedKiB (die : Nat) : Nat := if die < 4 then 512 else 256

/-- Scratchpad of a compute die in MiB (R14). -/
def scratchMiB (die : Nat) : Nat := if die < 4 then 256 else 128

/-- Lane registers per lane position of a sub-core (R86). -/
def laneRegs : Nat := 512
/-- Group-table entries of a sub-core (R86). -/
def groupEntries : Nat := 16
/-- Teams of a core (R86). -/
def teamsPerCore : Nat := 16
/-- Heavy units of a core (R86). -/
def heavyUnits : Nat := 8
/-- Records of a die's curd unit (R298). -/
def curdRecords : Nat := 131072
/-- Packets of a launch queue (R75). -/
def queueDepth : Nat := 64
/-- Undelivered events that a partition buffers (R80). -/
def eventDepth : Nat := 256
/-- Entries of the journal (R401). -/
def journalDepth : Nat := 4096

/-- Bound on the tier address of an interleaved page (R109). -/
def interleavedBound : Nat := 0x7735940000
/-- Bound of die-local and replicated pages (R109). -/
def nearBound : Nat := 0x1DCD650000

/-- A byte of a 32-byte granule read under a key that differs from the one it was written under: the granule, the
reader's key, the writer's key, the bytes written, and the byte's place (R111; log 6). -/
opaque wrongKey : Nat → BitVec 512 → BitVec 512 → List Byte → Nat → Byte

/-- Whether a fused multiply-add with an invalid product and a quiet NaN addend signals an invalid operation, which
IEEE 754 leaves to the implementation (R196; log 11). -/
opaque fmaInvalid : Bool

/-- The scan signature that a pattern run obtains: die, core, revision, duration, and a count (R384; log 7). -/
opaque scanSignature : Nat → Nat → BitVec 8 → Nat → Nat → Word

/-- A byte of a scan-state bit string: a count and the byte's position (R374; log 8). -/
opaque scanState : Nat → Nat → Byte

/-- A byte of an attestation report: the identity key, the measurement log, the nonce, the capability words, a count, and the
byte's position; and the length of a report that holds so many digests and words (R403; log 9). -/
opaque reportByte : Nat → List (BitVec 256) → List Byte → List Word → Nat → Nat → Byte
opaque reportSize : Nat → Nat → BitVec 16
def reportLength (digests words : Nat) : Nat := (reportSize digests words).toNat

/-- Whether an illegal state has left the group tables of its cluster inconsistent (R367; log 44). -/
opaque tablesBroken : Nat → Bool

/-- A field of an event message that no rule gives: the detail of codes 0x0002, 0x0004, 0x0005, 0x0006 and of most management
answers, and the tag of code 0x0007 (R80; log 34). -/
opaque eventValue : Nat → BitVec 64

end Sys2Proof.Config
end

