-- ==== Sys2Proof/Machine/Flags.lean ====
section
/-! DEFINITION. Number formats (R42 to R47), the mode register (R48 to R52), and the computation of every result and
every exception flag of the typed lane instructions (R195, R196, R205 to R216, R280). A float is decoded into an exact
value, computed exactly, and rounded once. -/

namespace Sys2Proof.Machine

/-! The mode register (R48) and exception flags. -/

/-- Flags in the order of the mode register's bits 8 to 12: FI, FZ, FO, FU, FX. -/
abbrev Exc := BitVec 5

def excI : Exc := 1
def excZ : Exc := 2
def excO : Exc := 4
def excU : Exc := 8
def excX : Exc := 16

/-- Bits of the mode register that hold a field (R8, R48). -/
def modeFields : Word := 0x00001F3F

def modeRM (m : Word) : Nat := bits m 0 3
def modeSat (m : Word) : Bool := bit m 3
def modeFtz32 (m : Word) : Bool := bit m 4
def modeFtz16 (m : Word) : Bool := bit m 5

/-- RM values that the mode register accepts (R50). -/
def rmLegal (rm : Nat) : Bool := decide (1 ≤ rm) && decide (rm ≤ 5)

/-- The mode register after flags are ORed in (R52). -/
def orFlags (m : Word) (f : Exc) : Word := m ||| BitVec.ofNat 32 (f.toNat * 2 ^ 8)

/-- The effective rounding mode: 1 RN, 2 RZ, 3 RD, 4 RU, 5 RA (R49). -/
def effRm (rm : Rnd) (mode : Word) : Nat :=
  match rm with
  | .mode => modeRM mode | .rn => 1 | .rz => 2 | .rd => 3 | .ru => 4 | .ra => 5

/-- Subnormals of the type are flushed under this mode register (R47). -/
def flushes (t : ETy) (mode : Word) : Bool :=
  match t with
  | .f32 => modeFtz32 mode
  | .f16 | .bf16 => modeFtz16 mode
  | _ => false

/-! Values in registers (R191). -/

/-- The bits of a value of type t held in a register or a pair. -/
def rawOf (t : ETy) (lo hi : Word) : Nat :=
  if t.is64 then lo.toNat + 2 ^ 32 * hi.toNat else lo.toNat % 2 ^ t.bits

/-- The exact integer that bits of type t stand for. -/
def intOf (t : ETy) (x : Nat) : Int := if t.isSigned then signed t.bits x else (x % 2 ^ t.bits : Nat)

/-- What the destination register, or pair, receives for result bits x of type t (R191). -/
def regOf (t : ETy) (x : Nat) : Word × Word :=
  if t.is64 then (BitVec.ofNat 32 x, BitVec.ofNat 32 (x / 2 ^ 32))
  else (BitVec.ofNat 32 (wrapTo 32 (intOf t x)), 0)

/-- Bits of type t for an exact integer: clamped under saturation, else wrapped (R43, R195). -/
def narrow (t : ETy) (sat : Bool) (x : Int) : Nat :=
  let lo : Int := if t.isSigned then -(2 ^ (t.bits - 1) : Nat) else 0
  let hi : Int := if t.isSigned then (2 ^ (t.bits - 1) : Nat) - 1 else (2 ^ t.bits : Nat) - 1
  wrapTo t.bits (if sat then max lo (min hi x) else x)

/-! Floating-point formats (R44). -/

/-- Exponent bits, mantissa bits, bias, and the largest finite value as mantissa with its hidden bit. -/
structure Fmt where
  eb : Nat
  mb : Nat
  bias : Nat
  maxM : Nat
  /-- biased exponent of the largest finite value -/
  maxE : Nat
  deriving DecidableEq, Repr

def fmtOf : ETy → Fmt
  | .f64 => { eb := 11, mb := 52, bias := 1023, maxM := 2 ^ 53 - 1, maxE := 2046 }
  | .f16 => { eb := 5, mb := 10, bias := 15, maxM := 2 ^ 11 - 1, maxE := 30 }
  | .bf16 => { eb := 8, mb := 7, bias := 127, maxM := 2 ^ 8 - 1, maxE := 254 }
  | .e4m3 => { eb := 4, mb := 3, bias := 7, maxM := 14, maxE := 15 }
  | .e5m2 => { eb := 5, mb := 2, bias := 15, maxM := 7, maxE := 30 }
  | _ => { eb := 8, mb := 23, bias := 127, maxM := 2 ^ 24 - 1, maxE := 254 }

def Fmt.width (f : Fmt) : Nat := 1 + f.eb + f.mb

/-- A decoded float: the value is ± m × 2^e. -/
inductive FVal where
  | nan (signalling : Bool)
  | inf (neg : Bool)
  | fin (neg : Bool) (m : Nat) (e : Int)
  deriving DecidableEq, Repr

def FVal.isNan : FVal → Bool
  | .nan _ => true
  | _ => false
def FVal.isSnan : FVal → Bool
  | .nan s => s
  | _ => false
def FVal.isInf : FVal → Bool
  | .inf _ => true
  | _ => false
def FVal.isZero : FVal → Bool
  | .fin _ m _ => m == 0
  | _ => false
def FVal.neg : FVal → Bool
  | .nan _ => false
  | .inf n => n
  | .fin n _ _ => n

/-- The value of bits of a float type; a subnormal reads as a zero of its sign when ftz (R44, R45, R47). -/
def unpack (t : ETy) (ftz : Bool) (x : Nat) : FVal :=
  let f := fmtOf t
  let neg := x / 2 ^ (f.eb + f.mb) % 2 == 1
  let e := x / 2 ^ f.mb % 2 ^ f.eb
  let m := x % 2 ^ f.mb
  if e = 2 ^ f.eb - 1 ∧ t ≠ .e4m3 then
    if m = 0 then .inf neg else .nan (t != .e5m2 && decide (m < 2 ^ (f.mb - 1)))
  else if t = .e4m3 ∧ e = 15 ∧ m = 7 then .nan false
  else if e = 0 then .fin neg (if ftz then 0 else m) (1 - (f.bias : Int) - f.mb)
  else .fin neg (m + 2 ^ f.mb) ((e : Int) - f.bias - f.mb)

/-- The canonical NaN of a type (R44). -/
def canonNan : ETy → Nat
  | .f64 => 0x7FF8000000000000
  | .f16 => 0x7E00
  | .bf16 => 0x7FC0
  | .e4m3 => 0x7F
  | .e5m2 => 0x7E
  | _ => 0x7FC00000

def signBit (t : ETy) (neg : Bool) : Nat := if neg then 2 ^ ((fmtOf t).eb + (fmtOf t).mb) else 0

/-- Infinity of a type; .E4M3 has none, and its canonical NaN stands for it (R46). -/
def infBits (t : ETy) (neg : Bool) : Nat :=
  if t = .e4m3 then canonNan t else signBit t neg + (2 ^ (fmtOf t).eb - 1) * 2 ^ (fmtOf t).mb

/-- The largest finite value. -/
def maxBits (t : ETy) (neg : Bool) : Nat :=
  signBit t neg + (fmtOf t).maxE * 2 ^ (fmtOf t).mb + ((fmtOf t).maxM - 2 ^ (fmtOf t).mb)

/-- Whether rounding mode rm sends n + rem / 2^sh, rem nonzero, to n + 1 (R49). -/
def roundUp (rm : Nat) (neg : Bool) (n rem sh : Nat) : Bool :=
  match rm with
  | 1 => decide (2 * rem > 2 ^ sh) || (2 * rem == 2 ^ sh && n % 2 == 1)
  | 3 => neg
  | 4 => !neg
  | 5 => decide (2 * rem ≥ 2 ^ sh)
  | _ => false

/-- m × 2^e rounded to a multiple of 2^q: the multiple, and whether it is inexact. -/
def roundAt (rm : Nat) (neg : Bool) (m : Nat) (e q : Int) : Nat × Bool :=
  if q ≤ e then (m * 2 ^ (e - q).toNat, false)
  else
    let sh := (q - e).toNat
    let n := m / 2 ^ sh
    let rem := m % 2 ^ sh
    if rem = 0 then (n, false) else (if roundUp rm neg n rem sh then n + 1 else n, true)

/-- Bits of a number, by a bound that any number here meets. -/
def natLen (m : Nat) : Nat := Nat.log2 m + 1

/-- The value that an overflow writes (R46). -/
def overflowBits (t : ETy) (rm : Nat) (sat neg : Bool) : Nat :=
  let toInf := rm = 1 ∨ rm = 5 ∨ (rm = 4 ∧ neg = false) ∨ (rm = 3 ∧ neg = true)
  if sat = true ∨ ¬ toInf then maxBits t neg else infBits t neg

/-- ± m × 2^e, m nonzero, rounded once into type t: its bits and flags (R46, R47). -/
def roundTo (t : ETy) (rm : Nat) (sat ftz neg : Bool) (m : Nat) (e : Int) : Nat × Exc :=
  let f := fmtOf t
  let qmin : Int := 1 - (f.bias : Int) - f.mb
  let top : Int := (natLen m : Int) - 1 + e
  let free := top - f.mb
  let q := max free qmin
  let r := roundAt rm neg m e q
  let carried := decide (r.1 ≥ 2 ^ (f.mb + 1))
  let n := if carried then r.1 / 2 else r.1
  let q' := if carried then q + 1 else q
  let inexact : Exc := if r.2 then excX else 0
  if n < 2 ^ f.mb then
    if ftz then (signBit t neg, excU ||| excX)
    else (signBit t neg + n, if r.2 then excU ||| excX else 0)
  else
    let biased : Int := q' + f.mb + f.bias
    if biased > f.maxE ∨ (biased = f.maxE ∧ n > f.maxM) then (overflowBits t rm sat neg, excO ||| excX)
    else
      -- rounded to the smallest normal, yet tiny with an unbounded exponent (R47)
      let u := roundAt rm neg m e free
      let tiny := decide (free < qmin) && decide ((u.1 : Int) < 2 ^ (qmin - free).toNat * 2 ^ f.mb)
      (signBit t neg + biased.toNat * 2 ^ f.mb + (n - 2 ^ f.mb),
        if r.2 && !ftz && tiny then inexact ||| excU else inexact)

/-- A value written to type t; conv marks a conversion, whose infinite input saturates (R46). -/
def packVal (t : ETy) (rm : Nat) (sat ftz conv : Bool) : FVal → Nat × Exc
  | .nan _ => (canonNan t, 0)
  | .inf neg =>
    if conv && sat then (maxBits t neg, excO ||| excX)
    else if t = .e4m3 then (canonNan t, excI)
    else (infBits t neg, 0)
  | .fin neg m e => if m = 0 then (signBit t neg, 0) else roundTo t rm sat ftz neg m e

/-- FI for each signalling operand (R45). -/
def snanExc (l : List FVal) : Exc := if l.any (·.isSnan) then excI else 0

/-- Exact sum of two finite values: sign, magnitude and exponent; a zero sum takes its sign from the rounding mode. -/
def addFin (rm : Nat) (na : Bool) (ma : Nat) (ea : Int) (nb : Bool) (mb : Nat) (eb : Int) : FVal :=
  let e := min ea eb
  let x : Int := (if na then -1 else 1) * (ma * 2 ^ (ea - e).toNat : Nat)
  let y : Int := (if nb then -1 else 1) * (mb * 2 ^ (eb - e).toNat : Nat)
  let s := x + y
  if s = 0 then .fin (if ma = 0 ∧ mb = 0 ∧ na = nb then na else rm == 3) 0 e
  else .fin (decide (s < 0)) s.natAbs e

/-- IEEE 754 addition before rounding; the flags are those of an invalid operation (R196). -/
def addVal (rm : Nat) (a b : FVal) : FVal × Exc :=
  match a, b with
  | .nan _, _ => (.nan false, 0)
  | _, .nan _ => (.nan false, 0)
  | .inf na, .inf nb => if na = nb then (.inf na, 0) else (.nan false, excI)
  | .inf na, _ => (.inf na, 0)
  | _, .inf nb => (.inf nb, 0)
  | .fin na ma ea, .fin nb mb eb => (addFin rm na ma ea nb mb eb, 0)

def negVal : FVal → FVal
  | .nan s => .nan s
  | .inf n => .inf (!n)
  | .fin n m e => .fin (!n) m e

def mulVal (a b : FVal) : FVal × Exc :=
  match a, b with
  | .nan _, _ => (.nan false, 0)
  | _, .nan _ => (.nan false, 0)
  | .inf na, .inf nb => (.inf (na != nb), 0)
  | .inf na, .fin nb mb _ => if mb = 0 then (.nan false, excI) else (.inf (na != nb), 0)
  | .fin na ma _, .inf nb => if ma = 0 then (.nan false, excI) else (.inf (na != nb), 0)
  | .fin na ma ea, .fin nb mb eb => (.fin (na != nb) (ma * mb) (ea + eb), 0)

/-- Quotient bits kept beyond what any destination needs; the lowest is sticky. -/
def guardBits : Nat := 72

/-- ma × 2^ea over mb × 2^eb, mb nonzero, as a value whose lowest bit stands for every bit below it. -/
def divFin (ma : Nat) (ea : Int) (mb : Nat) (eb : Int) : Nat × Int :=
  let sh := natLen mb + guardBits
  let q := ma * 2 ^ sh / mb
  let r := ma * 2 ^ sh % mb
  (2 * q + (if r = 0 then 0 else 1), ea - eb - sh - 1)

def divVal (a b : FVal) : FVal × Exc :=
  match a, b with
  | .nan _, _ => (.nan false, 0)
  | _, .nan _ => (.nan false, 0)
  | .inf _, .inf _ => (.nan false, excI)
  | .inf na, .fin nb _ _ => (.inf (na != nb), 0)
  | .fin na _ ea, .inf nb => (.fin (na != nb) 0 ea, 0)
  | .fin na ma ea, .fin nb mb eb =>
    if mb = 0 then (if ma = 0 then (.nan false, excI) else (.inf (na != nb), excZ))
    else if ma = 0 then (.fin (na != nb) 0 ea, 0)
    else
      let q := divFin ma ea mb eb
      (.fin (na != nb) q.1 q.2, 0)

/-- Integer square root of x by bits, from the given number of result bits down. -/
def isqrtFrom (x : Nat) : Nat → Nat → Nat
  | 0, r => r
  | k + 1, r => let r' := r + 2 ^ k; isqrtFrom x k (if r' * r' ≤ x then r' else r)

def isqrt (x : Nat) : Nat := isqrtFrom x (natLen x / 2 + 1) 0

/-- The root of m × 2^e, m nonzero, with a sticky lowest bit. -/
def sqrtFin (m : Nat) (e : Int) : Nat × Int :=
  let odd := e % 2 == 1
  let m' := (if odd then 2 * m else m) * 2 ^ (2 * guardBits)
  let e' := if odd then e - 1 else e
  let r := isqrt m'
  (2 * r + (if r * r = m' then 0 else 1), e' / 2 - guardBits - 1)

def sqrtVal (a : FVal) : FVal × Exc :=
  match a with
  | .nan _ => (.nan false, 0)
  | .inf neg => if neg then (.nan false, excI) else (.inf false, 0)
  | .fin neg m e =>
    if m = 0 then (.fin neg 0 e, 0)
    else if neg then (.nan false, excI)
    else let r := sqrtFin m e; (.fin false r.1 r.2, 0)

/-- Results of the operation flags and of rounding together. A saturating division by zero keeps its infinity (R210). -/
def finish (t : ETy) (rm : Nat) (sat ftz : Bool) (ops : List FVal) (r : FVal × Exc) : Nat × Exc :=
  let p := match r.1 with
    | .inf neg => (infBits t neg, (0 : Exc))
    | v => packVal t rm sat ftz false v
  (p.1, snanExc ops ||| r.2 ||| p.2)

/-- Comparison of two values that are not NaN. -/
def cmpVal (a b : FVal) : Ordering :=
  match a, b with
  | .inf true, .inf true => .eq
  | .inf false, .inf false => .eq
  | .inf na, _ => if na then .lt else .gt
  | _, .inf nb => if nb then .gt else .lt
  | .fin na ma ea, .fin nb mb eb =>
    let e := min ea eb
    let x : Int := (if na then -1 else 1) * (ma * 2 ^ (ea - e).toNat : Nat)
    let y : Int := (if nb then -1 else 1) * (mb * 2 ^ (eb - e).toNat : Nat)
    compare x y
  | _, _ => .eq

/-! Typed lane operations on the bits of their operands. -/

inductive Arith where
  | add | sub | mul
  deriving DecidableEq, Repr

/-- ADD, SUB and MUL (R205). -/
def arith (op : Arith) (t : ETy) (rm : Rnd) (satBit : Bool) (mode : Word) (a b : Nat) : Nat × Exc :=
  let sat := satBit || modeSat mode
  if t.isFloat then
    let r := effRm rm mode
    let x := unpack t (flushes t mode) a
    let y := unpack t (flushes t mode) b
    let v := match op with
      | .add => addVal r x y
      | .sub => addVal r x (negVal y)
      | .mul => mulVal x y
    finish t r sat (flushes t mode) [x, y] v
  else
    let x := intOf t a
    let y := intOf t b
    (narrow t sat (match op with | .add => x + y | .sub => x - y | .mul => x * y), 0)

/-- MAD: fused for floats (R205). -/
def madOp (t : ETy) (rm : Rnd) (satBit : Bool) (mode : Word) (a b c : Nat) : Nat × Exc :=
  let sat := satBit || modeSat mode
  if t.isFloat then
    let r := effRm rm mode
    let f := flushes t mode
    let x := unpack t f a
    let y := unpack t f b
    let z := unpack t f c
    let p := mulVal x y
    let v := addVal r p.1 z
    -- IEEE 754 leaves the flag of an invalid product open when the addend is a NaN (log 11)
    let pe := if z.isNan && !Config.fmaInvalid then 0 else p.2
    finish t r sat f [x, y, z] (v.1, pe ||| v.2)
  else (narrow t sat (intOf t a * intOf t b + intOf t c), 0)

/-- MIN and MAX (R206). -/
def minMax (isMin : Bool) (t : ETy) (mode : Word) (a b : Nat) : Nat × Exc :=
  if t.isFloat then
    let f := flushes t mode
    let x := unpack t f a
    let y := unpack t f b
    let asRead := fun (v : FVal) (r : Nat) => if v.isZero then signBit t v.neg else r
    let less := fun (v w : FVal) => match cmpVal v w with
      | .lt => true
      | .gt => false
      | .eq => v.neg && !w.neg
    let res :=
      if x.isNan && y.isNan then canonNan t
      else if x.isNan then asRead y b
      else if y.isNan then asRead x a
      else if less y x then (if isMin then asRead y b else asRead x a)
      else (if isMin then asRead x a else asRead y b)
    (res, snanExc [x, y])
  else
    let x := intOf t a
    let y := intOf t b
    (wrapTo t.bits (if isMin then min x y else max x y), 0)

/-- SETcc (R207). -/
def setCond (cc : SetCond) (t : ETy) (mode : Word) (a b : Nat) : Bool × Exc :=
  if t.isFloat then
    let f := flushes t mode
    let x := unpack t f a
    let y := unpack t f b
    let un := x.isNan || y.isNan
    let o := cmpVal x y
    let h := match cc with
      | .eq => !un && o == .eq
      | .ne => un || o != .eq
      | .lt => !un && o == .lt
      | .le => !un && o != .gt
      | .gt => !un && o == .gt
      | .ge => !un && o != .lt
      | .un => un
    (h, snanExc [x, y])
  else
    let x := intOf t a
    let y := intOf t b
    (match cc with
      | .eq => decide (x = y) | .ne => decide (x ≠ y) | .lt => decide (x < y) | .le => decide (x ≤ y)
      | .gt => decide (x > y) | .ge => decide (x ≥ y) | .un => false, 0)

/-- SHL and SHR of integer type t by an unsigned 32-bit count (R208). -/
def shiftOp (left : Bool) (t : ETy) (a n : Nat) : Nat :=
  if left then (if n < t.bits then a * 2 ^ n % 2 ^ t.bits else 0)
  else if n < t.bits then wrapTo t.bits (intOf t a / (2 ^ n : Nat))
  else wrapTo t.bits (if intOf t a < 0 then -1 else 0)

/-- NEG (R209). -/
def negOp (t : ETy) (satBit : Bool) (mode : Word) (a : Nat) : Nat × Exc :=
  if t.isFloat then
    let x := unpack t (flushes t mode) a
    if x.isNan then (canonNan t, snanExc [x])
    else if x.isZero then (signBit t (!x.neg), 0)
    else ((a + 2 ^ (t.bits - 1)) % 2 ^ t.bits, 0)
  else (narrow t (satBit || modeSat mode) (-(intOf t a)), 0)

/-- ABS (R209). -/
def absOp (t : ETy) (satBit : Bool) (mode : Word) (a : Nat) : Nat × Exc :=
  if t.isFloat then
    let x := unpack t (flushes t mode) a
    if x.isNan then (canonNan t, snanExc [x])
    else if x.isZero then (0, 0)
    else (a % 2 ^ (t.bits - 1), 0)
  else (narrow t (satBit || modeSat mode) ((intOf t a).natAbs : Nat), 0)

/-- DIV (R210). -/
def divOp (t : ETy) (rm : Rnd) (satBit : Bool) (mode : Word) (a b : Nat) : Nat × Exc :=
  let r := effRm rm mode
  let f := flushes t mode
  let x := unpack t f a
  let y := unpack t f b
  finish t r (satBit || modeSat mode) f [x, y] (divVal x y)

/-- SQRT (R210). -/
def sqrtOp (t : ETy) (rm : Rnd) (satBit : Bool) (mode : Word) (a : Nat) : Nat × Exc :=
  let r := effRm rm mode
  let f := flushes t mode
  let x := unpack t f a
  finish t r (satBit || modeSat mode) f [x] (sqrtVal x)

/-- A finite value rounded to an integer, and whether that changed it. -/
def toInteger (rm : Nat) (neg : Bool) (m : Nat) (e : Int) : Int × Bool :=
  let r := roundAt rm neg m e 0
  ((if neg then -1 else 1) * (r.1 : Int), r.2)

/-- A type that holds floats in the sense of R211: the four of R153 and the two 8-bit ones. -/
def isFloaty (t : ETy) : Bool := t.isFloat || t == .e4m3 || t == .e5m2

/-- CVT from u to t (R211). -/
def cvtOp (t u : ETy) (rm : Rnd) (satBit : Bool) (mode : Word) (a : Nat) : Nat × Exc :=
  let sat := satBit || modeSat mode
  let r := effRm rm mode
  if isFloaty u then
    let x := unpack u (flushes u mode) a
    if isFloaty t then
      let p := packVal t r sat (flushes t mode) true x
      (p.1, snanExc [x] ||| p.2)
    else
      match x with
      | .nan _ => (0, excI)
      | .inf neg => (narrow t true (if neg then -(2 ^ 70 : Nat) else (2 ^ 70 : Nat)), excI)
      | .fin neg m e =>
        let i := toInteger r neg m e
        let n := narrow t true i.1
        (n, if intOf t n = i.1 then (if i.2 then excX else 0) else excI)
  else if isFloaty t then
    let i := intOf u a
    packVal t r sat (flushes t mode) false (.fin (decide (i < 0)) i.natAbs 0)
  else (narrow t sat (intOf u a), 0)

/-- RNDI (R212). -/
def rndiOp (t : ETy) (rm : Rnd) (mode : Word) (a : Nat) : Nat × Exc :=
  let r := effRm rm mode
  let x := unpack t (flushes t mode) a
  match x with
  | .nan _ => (canonNan t, snanExc [x])
  | .inf neg => (infBits t neg, 0)
  | .fin neg m e =>
    let i := toInteger r neg m e
    ((packVal t r false false false (.fin neg i.1.natAbs 0)).1, 0)

/-- FCLASS (R213). -/
def fclassOp (t : ETy) (a : Nat) : Nat :=
  let f := fmtOf t
  match unpack t false a with
  | .nan s => if s then 2 ^ 8 else 2 ^ 9
  | .inf neg => if neg then 1 else 2 ^ 7
  | .fin neg m _ =>
    if m = 0 then (if neg then 2 ^ 3 else 2 ^ 4)
    else if m < 2 ^ f.mb then (if neg then 2 ^ 2 else 2 ^ 5)
    else (if neg then 2 else 2 ^ 6)

/-- DP4: the exact sum (R216). -/
def dp4Sum (u : ETy) (a b c : Word) : Int :=
  (List.range 4).foldl (fun x i => x + intOf u (bits a (8 * i) 8) * intOf u (bits b (8 * i) 8)) (signed 32 c.toNat)

/-- The .F32 sum of an atomic: subnormals in full, no saturation, no flag (R280). -/
def atomAddF32 (rm : Nat) (a b : Nat) : Nat :=
  (finish .f32 rm false false [] (addVal rm (unpack .f32 false a) (unpack .f32 false b))).1

end Sys2Proof.Machine
end

