-- ==== Sys2Proof/Machine/Operands.lean ====
section
/-! DEFINITION. Registers of lanes and slices: the window (R229), pairs (R144, R191), predicates (R143), marks (R133), and
the walk of a slice through its clause (R122, R124, R240). -/

namespace Sys2Proof.Machine

/-- A register that an instruction names: a window-relative lane register or a scalar register. -/
inductive Reg where
  | v (k : LReg)
  | s (k : SReg)
  deriving DecidableEq, Repr

/-- The register above an even one. -/
def up (r : Fin 64) : Fin 64 := r + 1

/-- The registers of a field that holds a value of type t: one, or a pair. -/
def vRegs (t : ETy) (k : LReg) : List Reg := if t.is64 then [.v k, .v (up k)] else [.v k]
def sRegs (t : ETy) (k : SReg) : List Reg := if t.is64 then [.s k, .s (up k)] else [.s k]
def vPair (k : LReg) : List Reg := [.v k, .v (up k)]
def sPair (k : SReg) : List Reg := [.s k, .s (up k)]

/-- n registers from k. -/
def vRun (k : LReg) (n : Nat) : List Reg := (List.range n).map fun i => .v (Fin.ofNat 64 (k.val + i))
def sRun (k : SReg) (n : Nat) : List Reg := (List.range n).map fun i => .s (Fin.ofNat 64 (k.val + i))

/-! Lanes. -/

def Slice.lane (sl : Slice) : Fin 4 → Lane
  | 0 => sl.l0
  | 1 => sl.l1
  | 2 => sl.l2
  | 3 => sl.l3

/-- The slice with f applied to each lane. -/
def Slice.mapLanes (sl : Slice) (f : Fin 4 → Lane → Lane) : Slice :=
  { sl with l0 := f 0 sl.l0, l1 := f 1 sl.l1, l2 := f 2 sl.l2, l3 := f 3 sl.l3 }

def lanes4 : List (Fin 4) := [0, 1, 2, 3]

/-- The physical register of window register k (R229), for a budget of b registers. -/
def Slice.phys (sl : Slice) (b : Nat) (k : LReg) : Nat := (sl.wb + k.val) % b

def Lane.get (l : Lane) (i : Nat) : Word := atV l.v i 0
def Lane.poisoned (l : Lane) (i : Nat) : Bool := bit l.vp i

/-- A write to a physical register; a value without poison clears its poison (R360). -/
def Lane.put (l : Lane) (i : Nat) (x : Word) (poison : Bool) : Lane :=
  { l with v := updV l.v i fun _ => x, vp := setBit l.vp i poison }

/-- Predicate k of a lane; p7 is 1 (R143). -/
def Lane.pred (l : Lane) (k : PReg) : Bool := k == 7 || bit l.p k.val

/-- A write to predicate k; p7 keeps its value (R146). -/
def Lane.setPred (l : Lane) (k : PReg) (x : Bool) : Lane := if k = 7 then l else { l with p := setBit l.p k.val x }

/-- The guard of a lane instruction (R145). -/
def Lane.guard (l : Lane) (g : Guard) : Bool := l.pred g.pred != g.neg

/-- The bits of a value of type t in window register k of a lane (R191). -/
def Slice.laneRaw (sl : Slice) (b : Nat) (t : ETy) (k : LReg) (l : Lane) : Nat :=
  rawOf t (l.get (sl.phys b k)) (l.get (sl.phys b (up k)))

/-- The 64-bit value of a lane pair. -/
def Slice.lanePair (sl : Slice) (b : Nat) (k : LReg) (l : Lane) : DWord :=
  pairOf (l.get (sl.phys b k)) (l.get (sl.phys b (up k)))

/-- A lane with result bits of type t written to window register k (R191). -/
def Slice.laneWrite (sl : Slice) (b : Nat) (t : ETy) (k : LReg) (x : Nat) (l : Lane) : Lane :=
  let r := regOf t x
  if t.is64 then (l.put (sl.phys b k) r.1 false).put (sl.phys b (up k)) r.2 false else l.put (sl.phys b k) r.1 false

/-- Some named lane register of the lane holds poison. -/
def Slice.lanePoison (sl : Slice) (b : Nat) (rs : List Reg) (l : Lane) : Bool :=
  rs.any fun r => match r with
    | .v k => l.poisoned (sl.phys b k)
    | .s _ => false

/-! Scalar registers. -/

def Slice.getS (sl : Slice) (k : SReg) : Word := sl.s[k]
def Slice.setS (sl : Slice) (k : SReg) (x : Word) : Slice := { sl with s := sl.s.set k x, sp := setBit sl.sp k.val false }
def Slice.getPair (sl : Slice) (k : SReg) : DWord := pairOf (sl.getS k) (sl.getS (up k))
def Slice.setPair (sl : Slice) (k : SReg) (x : DWord) : Slice := (sl.setS k (lowWord x)).setS (up k) (highWord x)

/-- The bits of a value of type t in scalar register k. -/
def Slice.scalarRaw (sl : Slice) (t : ETy) (k : SReg) : Nat := rawOf t (sl.getS k) (sl.getS (up k))

/-- Some named scalar register holds poison (R361). -/
def Slice.scalarPoison (sl : Slice) (rs : List Reg) : Bool :=
  rs.any fun r => match r with
    | .s k => bit sl.sp k.val
    | .v _ => false

/-! Marks (R133). -/

/-- The physical register that a named one stands for. -/
def Slice.markReg (sl : Slice) (b : Nat) : Reg → MarkReg
  | .v k => .v (sl.phys b k)
  | .s k => .s k

/-- The mark of a register, a pending one before a held one. -/
def Slice.marked (sl : Slice) (r : MarkReg) (pending : Bool) : Bool := sl.marks.any fun m => m.reg == r && m.pending == pending

/-- Detail of a dependence fault: the register named (R352). -/
def Reg.detail : Reg → DWord
  | .v k => BitVec.ofNat 64 k.val
  | .s k => BitVec.ofNat 64 (64 + k.val)

/-- The dependence fault of an instruction that reads and writes the named registers: sources before destinations
(R133). -/
def Slice.dependence (sl : Slice) (b : Nat) (rd wr : List Reg) : Option FaultInfo :=
  match rd.find? fun r => sl.marked (sl.markReg b r) true with
  | some r => some { cls := .dependence, reason := 1, detail := r.detail }
  | none =>
    match wr.find? fun r => sl.marked (sl.markReg b r) true || sl.marked (sl.markReg b r) false with
    | some r => some { cls := .dependence, reason := if sl.marked (sl.markReg b r) true then 1 else 2, detail := r.detail }
    | none => none

/-- The slice with marks on the named registers (R133). -/
def Slice.mark (sl : Slice) (b : Nat) (pending : Bool) (flag : Option (Fin 12)) (rs : List Reg) : Slice :=
  { sl with marks := sl.marks ++ rs.map fun r => { reg := sl.markReg b r, pending := pending, flag := flag } }

/-- A flag that a wait mask names. -/
def waited (mask : BitVec 12) (f : Option (Fin 12)) : Bool :=
  match f with
  | some i => bit mask i.val
  | none => false

/-! The clause that a slice runs (R124, R131). -/

/-- Whether word w is a clause header (R142). -/
def isHeader (w : Word) : Bool := bits w 30 2 == 2 && bits w 23 7 == 0x7F

/-- Words of the instruction whose primary word is w. -/
def wordsOf (w : Word) : Nat := if bit w 30 then 2 else 1

/-- Primary words among the first n words of a list; skip says that the first is an extension word. -/
def primaries : List Word → Nat → Bool → Nat
  | [], _, _ => 0
  | _, 0, _ => 0
  | w :: r, n + 1, skip => if skip then primaries r n false else primaries r n (bit w 30) + 1

/-- Position of the slice's offset in its clause buffer, in words; the header is position 0. -/
def Slice.pos (sl : Slice) : Nat :=
  match sl.cbuf with
  | some b => (sl.offset - b.base).toNat / 4
  | none => 0

/-- Words of plane p's copy of the clause (R122). -/
def Slice.planeWords (sl : Slice) (p : Fin 4) : List Word :=
  match sl.cbuf with
  | some b => b.planes[p]
  | none => []

/-- The primary word at the slice's offset in plane p, when the clause holds it. -/
def Slice.wordAt (sl : Slice) (p : Fin 4) : Option Word := (sl.planeWords p)[sl.pos]?

/-- The extension word after it; 0 when X = 0 or the clause ends first. -/
def Slice.extAt (sl : Slice) (p : Fin 4) : Word :=
  match sl.wordAt p with
  | some w => if bit w 30 then (sl.planeWords p).getD (sl.pos + 1) 0 else 0
  | none => 0

/-- Number, from 1, of the instruction at the slice's offset in its clause (R131). -/
def Slice.nth (sl : Slice) : Nat := primaries ((sl.planeWords 0).drop 1) (sl.pos - 1) false + 1

/-! Signatures (R240). -/

def foldSig (sg x : Word) : Word := (sg.rotateLeft 7) ^^^ x

/-- The slice with its instruction's words in plane 0 folded into sg. -/
def Slice.foldWords (sl : Slice) : Slice :=
  match sl.wordAt 0 with
  | some w => { sl with sg := if bit w 30 then foldSig (foldSig sl.sg w) (sl.extAt 0) else foldSig sl.sg w }
  | none => sl

/-- A clause has ended: its buffer is free, plane numbers that a SPLANE has set take effect (R128), and the yield of its
header defers the slice (R182). -/
def Slice.endClause (sl : Slice) : Slice :=
  let set := fun (j : Fin 4) (l : Lane) =>
    match sl.planeNext with
    | some n => { l with pl := Fin.ofNat 4 (bits n (2 * j.val) 2) }
    | none => l
  { sl.mapLanes set with inClause := false, cbuf := none, planeNext := none, defer := max sl.defer (8 * sl.yieldHint.val) }

/-- Nothing of the instruction at the offset is under way in the slice. -/
def Slice.fresh (sl : Slice) : Slice := { sl with dFresh := false, sdone := false, hold := .none }

/-- The slice past its instruction: at the next word of its clause, or out of the clause when that was its last (R131). -/
def Slice.advance (sl : Slice) : Slice :=
  let n := match sl.wordAt 0 with
    | some w => wordsOf w
    | none => 0
  let moved := { sl.fresh with offset := sl.offset + BitVec.ofNat 32 (4 * n) }
  if sl.pos + n < (sl.planeWords 0).length then moved else moved.endClause

/-- The slice after an instruction that it has executed whole. -/
def Slice.done (sl : Slice) : Slice := sl.foldWords.advance

/-- The slice after a taken transfer to an offset: its clause has ended (R228). -/
def Slice.jump (sl : Slice) (target : Word) : Slice := { sl.foldWords.fresh with offset := target }.endClause

end Sys2Proof.Machine
end

