-- ==== Sys2Proof/Machine/Translate.lean ====
section
/-! DEFINITION. Tiers and placement (R109, R110), encryption (R111), page entries and the walk (R104 to R108), and reads
and writes of main memory and the scratchpads. -/

namespace Sys2Proof.Machine

def State.die (s : State) (d : Nat) : Die := atV s.dies d Die.near
def State.updDie (s : State) (d : Nat) (f : Die → Die) : State := { s with dies := updV s.dies d f }
def State.part (s : State) (p : Nat) : Partition := atV s.partitions p Partition.reset
def State.updPart (s : State) (p : Nat) (f : Partition → Partition) : State := { s with partitions := updV s.partitions p f }

/-! Logical counters (R392). -/

/-- The later of a counter and a stamp; the counter's own value when neither is. -/
def laterOf (counter stamp : BitVec 48) : BitVec 48 :=
  let d := (stamp - counter).toNat
  if 1 ≤ d ∧ d ≤ 2 ^ 47 - 1 then stamp else counter

/-- An event or a send of die d takes the next counter value. -/
def State.tick (s : State) (d : Nat) : State := s.updDie d fun x => { x with counter := x.counter + 1 }

/-- A package message from die a to die b (none within one die); how many messages an access takes is the model's
choice (log 10). -/
def State.msg (s : State) (a b : Nat) : State :=
  if a = b then s
  else
    let s1 := s.tick a
    s1.updDie b fun x => { x with counter := laterOf x.counter (s1.die a).counter + 1 }

/-- A near die counts a request from die a as local when that is one of its own compute dies, else as remote (R13, R338). -/
def Die.countRequest (x : Die) (a b : Nat) : Die :=
  if b < 8 ∨ 12 ≤ b then x
  else if a < 8 ∧ a % 4 = b - 8 then { x with localReqs := x.localReqs + 1 }
  else { x with remoteReqs := x.remoteReqs + 1 }

/-- A request from die a that die b answers. -/
def State.roundTrip (s : State) (a b : Nat) : State :=
  ((s.msg a b).updDie b (·.countRequest a b)).msg b a

/-! Encryption. -/

def tagOf : List (Nat × Key) → Nat → Option Key
  | [], _ => none
  | (h, k) :: r, g => if h = g then some k else tagOf r g

def setTag : List (Nat × Key) → Nat → Key → List (Nat × Key)
  | [], g, k => [(g, k)]
  | (h, l) :: r, g, k => if g < h then (g, k) :: (h, l) :: r else if g = h then (g, k) :: r else (h, l) :: setTag r g k

/-- The 32 bytes of a granule that a reader with another key gets: free bytes that differ from those written (R111). -/
def wrongBytes (g : Nat) (reader writer : Key) (plain : List Byte) : List Byte :=
  let w := (List.range 32).map (Config.wrongKey g reader writer plain)
  if w = plain then plain.map (~~~ ·) else w

/-- Byte a of State.mem as a reader with the given key gets it. Bytes that no key has written read as they stand. -/
def State.byteAt (s : State) (key : Option Key) (a : Nat) : Byte :=
  match key, tagOf s.tags (a / 32) with
  | some k, some t =>
    if k = t then s.mem.get a
    else (wrongBytes (a / 32) k t (s.mem.read (a / 32 * 32) 32)).getD (a % 32) 0
  | _, _ => s.mem.get a

/-- n bytes from byte a of State.mem, each with the poison of its granule. -/
def State.readMain (s : State) (key : Option Key) (a : Nat) : Nat → List (Byte × Bool)
  | 0 => []
  | n + 1 => (s.byteAt key a, s.poison.contains (a / 32)) :: s.readMain key (a + 1) n

/-- A granule that is about to be written under key k holds what a reader with k gets, and k is its key. -/
def State.rekey (s : State) (k : Key) (g : Nat) : State :=
  match tagOf s.tags g with
  | some t =>
    if k = t then s
    else { s with mem := s.mem.write (32 * g) (wrongBytes g k t (s.mem.read (32 * g) 32)), tags := setTag s.tags g k }
  | none => { s with tags := setTag s.tags g k }

/-- Bytes written from byte a of State.mem, with poison (R111, R360). -/
def State.writeMain (s : State) (key : Option Key) (a : Nat) (bs : List (Byte × Bool)) : State :=
  let s1 : State := match key with
    | some k => (granules a bs.length).foldl (fun (t : State) g => t.rekey k g) s
    | none => s
  { s1 with mem := s1.mem.write a (bs.map (·.1)), poison := poisonAfter s1.poison a bs }

/-! Placement. -/

/-- XOR of the bit pairs 13-12 up to 47-46 of a tier address (R110). -/
def nearHash (pa : Nat) : Nat := (List.range 18).foldl (fun h i => h ^^^ (pa / 2 ^ (2 * i + 12) % 4)) 0

/-- Die and local offset of an interleaved tier address (R110). -/
def interleaved (pa : Nat) : Nat × Nat := (8 + nearHash pa, pa / 2 ^ 14 % 2 ^ 34 * 2 ^ 12 + pa % 2 ^ 12)

/-- The near die that serves a die (R13); a near or far die has none of its own. -/
def localNear (die home : Nat) : Nat := if die < 8 then 8 + die % 4 else home

/-! Page entries (R105). -/

def pteV (e : DWord) : Bool := bit e 0
def pteRd (e : DWord) : Bool := bit e 1
def pteW (e : DWord) : Bool := bit e 2
def pteX (e : DWord) : Bool := bit e 3
def pteT (e : DWord) : Bool := bit e 4
def pteS (e : DWord) : Bool := bit e 5
def ptePlace (e : DWord) : Nat := bits e 6 2
def pteHome (e : DWord) : Nat := bits e 8 2
def pteState (e : DWord) : Nat := bits e 10 2
def pteFrame (e : DWord) : Nat := bits e 12 36 * 2 ^ 12
def pteKey (e : DWord) : Nat := bits e 48 8

/-- log2 of a leaf's page size (R104, R106). -/
def leafBits (level : Nat) (e : DWord) : Nat :=
  if level = 2 then 30 else if level = 1 then 21 else if pteS e then 16 else 12

/-- What an access does, for R107: the patch engine's fetches are exempt from orders 5 and 6, its writes of text from order 6,
and an agent's read stops at order 4. -/
inductive Access where
  | read | write | fetch | patch | patchWrite | agent
  deriving DecidableEq, Repr

/-- Die and local offset of a leaf's tier address (R109). -/
def placeOf (reader : Nat) (e : DWord) (pa : Nat) : Nat × Nat :=
  match ptePlace e with
  | 0 => interleaved pa
  | 1 => (8 + pteHome e, pa)
  | 2 => (localNear reader (8 + pteHome e), pa)
  | _ => (12 + pteHome e % 2, pa)

/-- The bound on a leaf's tier addresses (R109). -/
def State.tierBound (s : State) (e : DWord) : Nat :=
  match ptePlace e with
  | 0 => Config.interleavedBound
  | 1 | 2 => Config.nearBound
  | _ => (s.die (12 + pteHome e % 2)).farBytes

/-- Key slot n, when it is loaded and lies in the partition's range (R73, R111). -/
def State.keyIn (s : State) (p : Nat) (n : Nat) : Option Key :=
  let d := (s.part p).descriptor
  if bits d 40 8 ≤ n ∧ n < bits d 40 8 + bits d 32 8 then atV s.keys n none else none

/-- A reserved field of a leaf is nonzero (R105, R107 order 2). -/
def leafReserved (level : Nat) (e : DWord) : Bool :=
  bits e 56 8 != 0 || pteState e == 3 ||
  (ptePlace e == 0 && pteHome e != 0) || (ptePlace e == 3 && pteHome e / 2 != 0) ||
  ((level == 1 || level == 2) && pteS e) || pteFrame e % 2 ^ leafBits level e != 0

/-- A reserved field of a table pointer is nonzero. -/
def tableReserved (e : DWord) : Bool := bits e 48 16 != 0 || bits e 6 6 != 0 || bits e 1 3 != 0

/-- Orders 2 to 7 of R107 for a valid leaf. -/
def State.judgeLeaf (s : State) (p : Nat) (acc : Access) (level : Nat) (e : DWord) : Option WalkFault :=
  if level ≥ 3 || leafReserved level e then some (.format level)
  else if pteFrame e + 2 ^ leafBits level e > s.tierBound e then some (.format level)
  else if (s.keyIn p (pteKey e)).isNone then some .key
  else
    match acc with
    | .agent | .patch => none
    | .read => if pteRd e then none else some .permission
    | .fetch => if pteX e then none else some .permission
    | .write | .patchWrite =>
      if !pteW e then some .permission
      else if acc == .write && pteX e then some .writeProtection
      else if pteState e = 1 ∨ pteState e = 2 then some .parked
      else if ptePlace e = 2 then some .collapse
      else none

/-- The page entry at a tier address, as the partition's walk reads it (R111); none when the key-base key is missing. -/
def State.entryAt (s : State) (p : Nat) (pa : Nat) : Option DWord :=
  match s.keyIn p (bits (s.part p).descriptor 40 8) with
  | none => none
  | some k =>
    let t := interleaved pa
    some (BitVec.ofNat 64 (fromLE ((s.readMain (some k) (mainAddr t.1 t.2) 8).map (·.1))))

/-- Index of a global address at a table level (R104). -/
def levelIndex (va level : Nat) : Nat := va / 2 ^ (12 + 9 * level) % 512

/-- The walk over the levels left, from the table at a tier address: the level, the entry's tier address and the entry
of a valid leaf (R104, R106, R107 orders 1 and 2). -/
def State.walk (s : State) (p : Nat) (va : Nat) : List Nat → Nat → Except WalkFault (Nat × Nat × DWord)
  | [], _ => .error .page
  | level :: rest, table =>
    let at' := table + 8 * levelIndex va level
    match s.entryAt p at' with
    | none => .error .key
    | some e =>
      if !pteV e then .error .page
      else if level = 0 then
        if pteT e then .error (.format 0)
        else if pteS e then
          let at0 := table + 8 * (levelIndex va 0 / 16 * 16)
          match s.entryAt p at0 with
          | none => .error .key
          | some e0 =>
            if !pteV e0 then .error .page
            else if !pteS e0 || pteT e0 then .error (.format 0)
            else .ok (0, at0, e0)
        else .ok (0, at', e)
      else if pteT e then
        if tableReserved e then .error (.format level) else s.walk p va rest (pteFrame e)
      else .ok (level, at', e)

/-- The leaf for a global address, from the root (R104); no page lies at or past 2^57 (R101). -/
def State.leafFor (s : State) (p : Nat) (va : Nat) : Except WalkFault (Nat × Nat × DWord) :=
  let root := (s.part p).root
  if 2 ^ 57 ≤ va then .error .page
  else if bit root 0 then s.walk p va [4, 3, 2, 1, 0] (bits root 12 36 * 2 ^ 12) else .error .page

/-- A translation that die d has cached for the address (R108). -/
def State.cached (s : State) (d p va : Nat) : Option Cached :=
  s.tlb.find? fun c => c.die.val = d && c.partition.val = p && decide (c.va ≤ va) && decide (va < c.va + 2 ^ c.bits)

/-- The level of a cached leaf. -/
def Cached.level (c : Cached) : Nat := if c.bits = 30 then 2 else if c.bits = 21 then 1 else 0

/-- The target of a leaf. -/
def State.targetOf (s : State) (d p va level : Nat) (e : DWord) : Target :=
  let b := leafBits level e
  let t := placeOf d e (pteFrame e + va % 2 ^ b)
  { va := va, die := t.1, off := t.2, key := s.keyIn p (pteKey e), left := 2 ^ b - va % 2 ^ b, leaf := e, bits := b }

/-- Translation of a global address for an access of partition p made from die d (R104 to R109): through the cached
leaf when there is one, else through the tables. -/
def State.translate (s : State) (d p : Nat) (acc : Access) (va : Nat) : Except WalkFault Target :=
  match s.cached d p va with
  | some c =>
    match s.judgeLeaf p acc c.level c.leaf with
    | some f => .error f
    | none => .ok (s.targetOf d p va c.level c.leaf)
  | none =>
    match s.leafFor p va with
    | .error f => .error f
    | .ok (level, _, e) =>
      match s.judgeLeaf p acc level e with
      | some f => .error f
      | none => .ok (s.targetOf d p va level e)

/-- Runs of bytes from a global address, page by page; fuel bounds the pages. The result lists the targets with the
bytes each takes, and how the walk ended. A run also ends where the interleaved granule of 4 KiB ends (R110). -/
def State.runs (s : State) (d p : Nat) (acc : Access) : Nat → Nat → Nat → List (Target × Nat) × Option (Nat × WalkFault)
  | 0, _, _ => ([], none)
  | fuel + 1, va, n =>
    if n = 0 then ([], none)
    else
      match s.translate d p acc va with
      | .error f => ([], some (va, f))
      | .ok t =>
        let k := min n (4096 - va % 4096)
        let r := s.runs d p acc fuel (va + k) (n - k)
        ((t, k) :: r.1, r.2)

/-- Pieces of n bytes from a translated address to the end of its page, in granules of 4 KiB (R108, R110). -/
def State.pagePieces (s : State) (d p : Nat) (t : Target) : Nat → Nat → Nat → List (Target × Nat)
  | 0, _, _ => []
  | fuel + 1, va, n =>
    if n = 0 then []
    else
      let k := min n (4096 - va % 4096)
      let c : Cached := { die := 0, partition := 0, va := 0, bits := t.bits, leaf := t.leaf }
      (s.targetOf d p va c.level t.leaf, k) :: s.pagePieces d p t fuel (va + k) (n - k)

/-- The part of n bytes from va that lies in va's page, through one translation (R108). -/
def State.openPage (s : State) (d p : Nat) (acc : Access) (va n : Nat) : Except WalkFault (List (Target × Nat)) :=
  match s.translate d p acc va with
  | .error f => .error f
  | .ok t => let k := min n t.left; .ok (s.pagePieces d p t (k / 4096 + 2) va k)

/-- Bytes at a list of targets. -/
def State.readRuns (s : State) : List (Target × Nat) → List (Byte × Bool)
  | [] => []
  | (t, n) :: r => s.readMain t.key (mainAddr t.die t.off) n ++ s.readRuns r

/-- Bytes written along a list of targets. -/
def State.writeRuns (s : State) : List (Target × Nat) → List (Byte × Bool) → State
  | [], _ => s
  | (t, n) :: r, bs => (s.writeMain t.key (mainAddr t.die t.off) (bs.take n)).writeRuns r (bs.drop n)

/-- Pages that n bytes from va can touch, counted in 4 KiB. -/
def pageFuel (va n : Nat) : Nat := (va % 4096 + n) / 4096 + 2

/-- n bytes of a partition's global window, or the fault of the first page that has one. -/
def State.readGlobal (s : State) (d p : Nat) (acc : Access) (va n : Nat) : Except (Nat × WalkFault) (List (Byte × Bool)) :=
  match s.runs d p acc (pageFuel va n) va n with
  | (ts, none) => .ok (s.readRuns ts)
  | (_, some f) => .error f

/-- Bytes written to a partition's global window, all or none. -/
def State.writeGlobal (s : State) (d p : Nat) (va : Nat) (bs : List (Byte × Bool)) : Except (Nat × WalkFault) State :=
  match s.runs d p .write (pageFuel va bs.length) va bs.length with
  | (ts, none) => .ok (s.writeRuns ts bs)
  | (_, some f) => .error f

/-! Entries that the hardware changes (R108, R113). -/

/-- The entry at a tier address rewritten, under the partition's key-base key. -/
def State.putEntry (s : State) (p : Nat) (pa : Nat) (e : DWord) : State :=
  let t := interleaved pa
  s.writeMain (s.keyIn p (bits (s.part p).descriptor 40 8)) (mainAddr t.1 t.2) ((toLE 8 e.toNat).map fun b => (b, false))

/-- Cached translations of a partition that touch n bytes from va are dropped on every die (R108). -/
def State.uncache (s : State) (p va n : Nat) : State :=
  { s with tlb := s.tlb.filter fun c =>
      !(c.partition.val == p && decide (c.va < va + n) && decide (va < c.va + 2 ^ c.bits)) }

/-- Step 1 of a collapse that die d's write has brought about: its home near die sets the entry's state to 0b01, and the page
joins those being collapsed (R112, R113). -/
def State.beginCollapse (s : State) (d : Nat) (p : Fin 16) (va : Nat) : State :=
  match s.leafFor p.val va with
  | .error _ => s
  | .ok (level, pa, e) =>
    if ptePlace e = 2 && pteState e = 0 then
      let first := va / 2 ^ leafBits level e * 2 ^ leafBits level e
      let s1 := ((s.msg d (8 + pteHome e)).putEntry p.val pa (setBits e 10 2 1)).uncache p.val first (2 ^ leafBits level e)
      { s1 with collapsing := s1.collapsing ++ [(p, BitVec.ofNat 64 first)] }
    else s

/-- Bytes without poison. -/
def clean (bs : List Byte) : List (Byte × Bool) := bs.map fun b => (b, false)

/-- A record that the device writes into global memory from die d (R413): any fault of R107 drops it and counts the
drop. The second value says whether it was written. -/
def State.writeRecord (s : State) (d p : Nat) (va : Nat) (bs : List Byte) : State × Bool :=
  match s.writeGlobal d p va (clean bs) with
  | .ok t => (t, true)
  | .error _ => (s.updPart p fun x => { x with cRecords := x.cRecords + 1 }, false)

end Sys2Proof.Machine
end

