-- ==== Sys2Proof/Machine/Access.lean ====
section
/-! DEFINITION. Finding and changing teams, groups and slices; generic addresses and the places they lead to (R101, R274);
reading and writing at a place; events (R80). -/

namespace Sys2Proof.Machine

/-- What a meaning answers. -/
abbrev Out := Host.Outcome State Fault Refusal

/-! Teams, groups, slices. -/

def Group.slice? (g : Group) (n : Nat) : Option Slice := g.slices.find? (·.num == n)
def Group.updSlice (g : Group) (n : Nat) (f : Slice → Slice) : Group :=
  { g with slices := g.slices.map fun x => if x.num = n then f x else x }
def Group.mapSlices (g : Group) (f : Slice → Slice) : Group := { g with slices := g.slices.map f }
def Team.group? (t : Team) (n : Nat) : Option Group := t.groups.find? (·.num == n)
def Team.updGroup (t : Team) (n : Nat) (f : Group → Group) : Team :=
  { t with groups := t.groups.map fun x => if x.num = n then f x else x }
def Team.mapGroups (t : Team) (f : Group → Group) : Team := { t with groups := t.groups.map f }
def State.team? (s : State) (uid : Nat) : Option Team := s.teams.find? (·.uid == uid)
def State.updTeam (s : State) (uid : Nat) (f : Team → Team) : State :=
  { s with teams := s.teams.map fun x => if x.uid = uid then f x else x }
def State.updGroup (s : State) (uid n : Nat) (f : Group → Group) : State := s.updTeam uid (·.updGroup n f)
def State.updSlice (s : State) (uid n k : Nat) (f : Slice → Slice) : State := s.updGroup uid n (·.updSlice k f)
def State.group? (s : State) (uid n : Nat) : Option Group := (s.team? uid).bind (·.group? n)
def State.launch? (s : State) (id : Nat) : Option Launch := s.launches.find? (·.id == id)
def State.updLaunch (s : State) (id : Nat) (f : Launch → Launch) : State :=
  { s with launches := s.launches.map fun x => if x.id = id then f x else x }

/-- The slices of a gang: those that have not exited (R175, R178). -/
def Slice.inGang (sl : Slice) (gang : Nat) : Bool := sl.gang == gang && !sl.exited

/-- Members of a gang, in ascending group and slice order. -/
def Team.members (t : Team) (gang : Nat) : List (Group × Slice) :=
  t.groups.flatMap fun g => (g.slices.filter (·.inGang gang)).map fun x => (g, x)

def Team.mapGang (t : Team) (gang : Nat) (f : Group → Slice → Slice) : Team :=
  t.mapGroups fun g => g.mapSlices fun x => if x.inGang gang then f g x else x

/-- The members of the gang that is issuing. -/
def State.members (s : State) : List (Group × Slice) :=
  match s.team? s.cur.team with
  | some t => t.members s.cur.gang
  | none => []

def State.mapGang (s : State) (f : Group → Slice → Slice) : State := s.updTeam s.cur.team (·.mapGang s.cur.gang f)

/-- The gang of each slice of a group, each once. -/
def Group.gangs (g : Group) : List Nat :=
  g.slices.foldl (fun l x => if x.exited || l.contains x.gang then l else l ++ [x.gang]) []

/-- The group's slices of a gang form a gang of their own when the gang holds other groups' slices (R184). -/
def Team.splitOff (t : Team) (gang group : Nat) : Team :=
  if (t.members gang).all fun m => m.1.num == group then t
  else
    { t.updGroup group (fun g => g.mapSlices fun x => if x.inGang gang then { x with gang := t.nextGang } else x) with
      nextGang := t.nextGang + 1 }

/-- Spill depth of a group in bytes (R229). -/
def Group.depth (g : Group) : Nat := 4 * g.width * (g.slices.foldl (fun m x => max m x.lo) 0)

/-! Addresses (R101). -/

/-- The space of a generic address, and the offset in it. -/
def spaceOf (a : DWord) : Space × Nat :=
  let top := bits a 48 16
  if top = 0xFFFF then (.shared, bits a 0 48)
  else if top = 0xFFFE then (.stack, bits a 0 48)
  else if top = 0xFFFD then (.scratch, bits a 0 48)
  else if a.toNat < 2 ^ 57 then (.global, a.toNat)
  else (.nowhere, a.toNat)

/-- First byte and size of the partition's scratchpad allocation on a die (R103). -/
def State.allocation (s : State) (p : Nat) (die : Nat) : Nat × Nat :=
  let r := atV (s.part p).scratch die 0
  (bits r 32 16 * 2 ^ 20, bits r 16 16 * 2 ^ 20)

/-- Bound of an on-chip aperture for a team (R101). -/
def State.bound (s : State) (t : Team) : Space → Nat
  | .shared => match s.launch? t.launch with
    | some l => l.header.sharedKiB * 1024
    | none => 0
  | .stack => match s.launch? t.launch with
    | some l => l.header.spill
    | none => 0
  | .scratch => (s.allocation t.partition.val t.die.val).2
  | _ => 0

/-- Where a checked access leads. -/
inductive Found where
  | place (x : Spot)
  | fault (f : FaultInfo)
  /-- parked: by a page fault, or by the page's state or a collapse -/
  | park (f : WalkFault)
  deriving DecidableEq, Repr

/-- The fault that a failed walk raises (R107, R352). -/
def WalkFault.info (f : WalkFault) (a : DWord) : FaultInfo :=
  match f with
  | .page | .parked | .collapse => { cls := .page, detail := a }
  | .format l => { cls := .translationFormat, reason := l, detail := a }
  | .key => { cls := .key, detail := a }
  | .permission => { cls := .permission, detail := a }
  | .writeProtection => { cls := .writeProtection, detail := a }

/-- The outcome parks the access (R107 orders 1 and 7). -/
def WalkFault.parks : WalkFault → Bool
  | .page | .parked | .collapse => true
  | _ => false

/-- Orders 2 to 7 of R274 for an access of n bytes by a group. -/
def State.locate (s : State) (t : Team) (g : Group) (lane : Bool) (acc : Access) (a : DWord) (n : Nat) : Found :=
  match spaceOf a with
  | (.nowhere, _) => .fault { cls := .address, detail := a }
  | (.global, va) =>
    if lane then .fault { cls := .accessPath, detail := a }
    else if va % n ≠ 0 then .fault { cls := .alignment, detail := a }
    else
      match s.translate t.die.val t.partition.val acc va with
      | .ok tg => .place (.main tg)
      | .error f => if f.parks then .park f else .fault (f.info a)
  | (sp, off) =>
    if off % n ≠ 0 then .fault { cls := .alignment, detail := a }
    else if off + n > s.bound t sp ∨ (sp = .stack ∧ off < g.depth) then .fault { cls := .apertureBound, detail := a }
    else .place (.chip sp off)

/-- n bytes of an on-chip space of a group, with poison. -/
def State.readChip (s : State) (t : Team) (g : Group) (sp : Space) (off n : Nat) : List (Byte × Bool) :=
  match sp with
  | .shared => withPoison t.sharedPoison off (t.shared.read off n)
  | .stack => withUnits 4 g.stackPoison off (g.stack.read off n)
  | _ => s.readMain none (mainAddr t.die.val ((s.allocation t.partition.val t.die.val).1 + off)) n

/-- Bytes written to an on-chip space of group g of team uid. -/
def State.writeChip (s : State) (uid g : Nat) (sp : Space) (off : Nat) (bs : List (Byte × Bool)) : State :=
  match sp with
  | .shared => s.updTeam uid fun t =>
    { t with shared := t.shared.write off (bs.map (·.1)), sharedPoison := poisonAfter t.sharedPoison off bs }
  | .stack => s.updGroup uid g fun x =>
    { x with stack := x.stack.write off (bs.map (·.1)), stackPoison := poisonUnits 4 x.stackPoison off bs }
  | _ => match s.team? uid with
    | some t => s.writeMain none (mainAddr t.die.val ((s.allocation t.partition.val t.die.val).1 + off)) bs
    | none => s

/-- n bytes at a place. -/
def State.readSpot (s : State) (t : Team) (g : Group) (n : Nat) : Spot → List (Byte × Bool)
  | .chip sp off => s.readChip t g sp off n
  | .main tg => s.readMain tg.key (mainAddr tg.die tg.off) n

def State.writeSpot (s : State) (uid g : Nat) (bs : List (Byte × Bool)) : Spot → State
  | .chip sp off => s.writeChip uid g sp off bs
  | .main tg => s.writeMain tg.key (mainAddr tg.die tg.off) bs

/-- The place n bytes further on. -/
def Spot.shift (n : Nat) : Spot → Spot
  | .chip sp off => .chip sp (off + n)
  | .main t => .main { t with va := t.va + n, off := t.off + n, left := t.left - n }

/-- The place of an on-chip generic address. -/
def chipSpot (a : DWord) : Spot := .chip (spaceOf a).1 (spaceOf a).2

/-- The die, other than the tile's own units, that serves a place for a team: the serving die of main memory (R109), or the
team's own die for its scratchpad (R371). -/
def Spot.server (t : Team) : Spot → Option Nat
  | .main tg => some tg.die
  | .chip .scratch _ => some t.die.val
  | .chip _ _ => none

/-- A granule's request to a place and its answer (R338, R392): the scratchpad of the die itself takes no message. -/
def State.visit (s : State) (d : Nat) : Spot → State
  | .main tg => s.roundTrip d tg.die
  | .chip _ _ => s

def State.chipBytes (s : State) (t : Team) (g : Group) (a : DWord) (n : Nat) : List (Byte × Bool) := s.readSpot t g n (chipSpot a)

/-! Operations of a group. -/

def Group.updOp (g : Group) (id : Nat) (f : Op → Op) : Group := { g with ops := g.ops.map fun o => if o.id = id then f o else o }
def Group.op? (g : Group) (id : Nat) : Option Op := g.ops.find? (·.id == id)
def State.updOp (s : State) (uid n id : Nat) (f : Op → Op) : State := s.updGroup uid n (·.updOp id f)

/-- The team, group and operation that a reference names. -/
def State.opAt (s : State) (uid n id : Nat) : Option (Team × Group × Op) :=
  (s.team? uid).bind fun t => (t.group? n).bind fun g => (g.op? id).map fun o => (t, g, o)

def State.landing? (s : State) (id : Nat) : Option Landing := s.landings.find? (·.id == id)

/-! Events (R80). -/

/-- The endpoint that a partition's events go to: the source of the entry that its event target names (R73, R80). -/
def State.eventTarget (s : State) (p : Nat) : Word :=
  BitVec.ofNat 32 (bits (atV s.acl (bits (s.part p).descriptor 48 8) 0) 0 32)

/-- A partition event: it takes far die 12's next counter value and joins the stream, or is dropped and counted in a field
of 16 bits, which wraps (log 54). -/
def State.event (s : State) (p : Nat) (code reason : Nat) (tag : Word) (detail : DWord) : State :=
  let s1 := s.tick 12
  let c := (s1.die 12).counter
  s1.updPart p fun x =>
    if x.events.length ≥ Config.eventDepth then { x with lost := x.lost + 1 }
    else
      { x with
        events := x.events ++ [{ dest := s.eventTarget p, session := none, event :=
          { code := BitVec.ofNat 16 code, partition := BitVec.ofNat 8 p, reason := BitVec.ofNat 8 reason, tag := tag,
            detail := detail, counter := c, lost := x.lost } }],
        lost := 0 }

/-- An event that arises on die d and is forwarded to far die 12. -/
def State.eventFrom (s : State) (d p : Nat) (code reason : Nat) (tag : Word) (detail : DWord) : State :=
  (s.msg d 12).event p code reason tag detail

end Sys2Proof.Machine
end

