-- ==== Sys2Proof/Machine/Tiles.lean ====
section
/-! DEFINITION. Block formats (R54 to R57), scale tiles (R58 to R60), pressed tiles (R61 to R68), and the order of sums of
the matrix units (R315, R316). -/

namespace Sys2Proof.Machine

/-! Element values. -/

/-- The sign-magnitude tables of R57, times 2: types 1 (E2M1), 2 (power of two), 3 (hybrid). -/
def magnitude (ty c : Nat) : Nat :=
  match ty with
  | 1 => [0, 1, 2, 3, 4, 6, 8, 12].getD c 0
  | 2 => [0, 2, 4, 8, 16, 32, 64, 128].getD c 0
  | _ => [0, 2, 4, 6, 8, 10, 12, 16].getD c 0

/-- table(type, c) of R57, times 2. -/
def q4Table (ty c : Nat) : Int :=
  if ty = 0 then 2 * signed 4 c
  else if c < 8 then magnitude ty c
  else -(magnitude ty (c - 8) : Int)

/-- An integer as an exact value with exponent e; zero is +0. -/
def intVal (x : Int) (e : Int) : FVal := .fin (decide (x < 0)) x.natAbs e

/-- Scale exponent of a .Q4 block; none when every element is NaN (R56). -/
def q4Scale (s : Nat) : Option Int := if s % 64 = 63 then none else some ((s % 64 : Nat) - 32)

/-- Scale exponent of an .MX4 block (R55). -/
def mx4Scale (s : Nat) : Option Int := if s = 0xFF then none else some ((s : Int) - 127)

/-- An element without its scale, by type: a code of a 4-bit type, or the bits of a float (R44, R55, R57). -/
def elemVal (t : ETy) (scale raw : Nat) : FVal :=
  match t with
  | .q4 => intVal (q4Table (scale / 64) raw) (-1)
  | .mx4 => intVal (q4Table 1 raw) (-1)
  | _ => unpack t false raw

/-- The value scaled by a power of two. -/
def scaleVal (v : FVal) (k : Int) : FVal :=
  match v with
  | .fin n m e => .fin n m (e + k)
  | w => w

/-! Scale tiles. -/

/-- Byte offset of scale b in its tile (R58). -/
def swizzle (b : Nat) : Nat := 4 * (b / 4) + ((b % 4) ^^^ (b / 4 % 4))

/-- Scale byte of block g of a region held as bytes (R59). -/
def scaleAt (region : List Byte) (g : Nat) : Nat := (region.getD (128 * (g / 128) + swizzle (g % 128)) 0).toNat

/-- R60 for a region of n scale tiles at a generic address, for a team. -/
def State.scaleFault (s : State) (t : Team) (a : DWord) (n : Nat) : Option FaultInfo :=
  let bad : Option FaultInfo := some { cls := .scaleLayout, detail := a }
  match spaceOf a with
  | (.nowhere, _) => some { cls := .address, detail := a }
  | (.stack, _) => bad
  | (.global, va) => if va % 128 = 0 then none else bad
  | (sp, off) => if off % 128 = 0 ∧ off + 128 * n ≤ s.bound t sp then none else bad

/-! Reading bytes of a generic address for an engine. -/

/-- How a fault of a walk at an address stops an engine (R291). -/
def stopOf (va : Nat) (f : WalkFault) : Stop :=
  if f.parks then .park va f else .fault (f.info (BitVec.ofNat 64 va))

/-- Part of n bytes from va that lies below 2^57. -/
def belowTop (va n : Nat) : Nat := min n (2 ^ 57 - va)

/-- n bytes of global memory read by an engine of a partition on a die; reaching 2^57 is an address fault. -/
def State.engineRead (s : State) (d p va n : Nat) : Except Stop (List (Byte × Bool)) :=
  match s.readGlobal d p .read va (belowTop va n) with
  | .error (a, f) => .error (stopOf a f)
  | .ok bs =>
    if belowTop va n < n then .error (.fault { cls := .address, detail := BitVec.ofNat 64 (max va (2 ^ 57)) }) else .ok bs

/-- The first poisoned byte's granule stops an engine that uses the bytes (R361). -/
def poisonStop (va : Nat) (bs : List (Byte × Bool)) : Option Stop :=
  match bs.findIdx? (·.2) with
  | some i => some (.fault { cls := .poison, reason := 2, detail := BitVec.ofNat 64 ((va + i) / 32 * 32) })
  | none => none

/-- Bytes that an engine uses: read, and not poisoned. -/
def State.engineUse (s : State) (d p va n : Nat) : Except Stop (List Byte) :=
  match s.engineRead d p va n with
  | .error e => .error e
  | .ok bs =>
    match poisonStop va bs with
    | some e => .error e
    | none => .ok (bs.map (·.1))

/-- Scale bytes of n tiles at a generic address, for a group's engine. -/
def State.scaleBytes (s : State) (t : Team) (g : Group) (a : DWord) (n : Nat) : Except Stop (List Byte) :=
  match spaceOf a with
  | (.global, va) => s.engineUse t.die.val t.partition.val va (128 * n)
  | (sp, off) =>
    let bs := s.readChip t g sp off (128 * n)
    match poisonStop a.toNat bs with
    | some e => .error e
    | none => .ok (bs.map (·.1))

/-! Pressed tiles. -/

/-- CRC-16 of R64 over one byte. -/
def crcByte (c : Nat) (b : Byte) : Nat :=
  (List.range 8).foldl (fun c _ => if c / 2 ^ 15 % 2 = 1 then (2 * c % 2 ^ 16) ^^^ 0x1021 else 2 * c % 2 ^ 16)
    (c ^^^ (b.toNat * 256))

def crc16 (bs : List Byte) : Nat := bs.foldl crcByte 0xFFFF

/-- A block length from its code (R62). -/
def blockLen (code : Nat) : Nat := 32 * 2 ^ code

/-- A packed field of w bits, widened to a 4-bit code (R63). -/
def widen (w ty x : Nat) : Nat :=
  if ty = 0 then wrapTo 4 (signed w x) else x / 2 ^ (w - 1) * 8 + x % 2 ^ (w - 1)

/-- Codes of n fields of w bits from a number. -/
def fields (w n x : Nat) : List Nat := (List.range n).map fun i => x / 2 ^ (w * i) % 2 ^ w

/-- Codes of a zero-run bitmap block: the bitmap's bits, taking listed nibbles in order. -/
def unrun : List Nat → List Nat → List Nat
  | [], _ => []
  | 0 :: r, ns => 0 :: unrun r ns
  | _ :: r, ns => ns.headD 0 :: unrun r (ns.drop 1)

/-- What a walk of one block finds: the codes, a zero-run fault, and the payload after the block; none when the block
passes the bound (R66). -/
def walkBlock (mode ty len : Nat) (payload : List Byte) : Option (List Nat × Bool × List Byte) :=
  let take := fun (n : Nat) (codes : Nat → List Nat) =>
    if payload.length < n then none else some (codes (fromLE (payload.take n)), false, payload.drop n)
  match mode with
  | 0 => take (len / 2) (fields 4 len)
  | 1 => take (3 * len / 8) fun x => (fields 3 len x).map (widen 3 ty)
  | 2 => take (len / 4) fun x => (fields 2 len x).map (widen 2 ty)
  | _ =>
    let map := fromLE (payload.take (len / 8))
    let nz := popCount len map
    let n := len / 8 + (nz + 1) / 2
    if payload.length < len / 8 || payload.length < n then none
    else
      let listed := fields 4 (2 * ((nz + 1) / 2)) (fromLE ((payload.drop (len / 8)).take ((nz + 1) / 2)))
      let bad := (listed.take nz).any (· == 0) || (listed.drop nz).any (· != 0)
      some (unrun (fields 1 len map) listed, bad, payload.drop n)

/-- The walk over the blocks: the codes of each, the first zero-run fault, and whether it ended with nothing left. -/
def walkBlocks (len : Nat) : Nat → List (Nat × Nat) → List Byte → List (List Nat) × Option Nat × Bool
  | _, [], payload => ([], none, payload.isEmpty)
  | b, (mode, ty) :: rest, payload =>
    match walkBlock mode ty len payload with
    | none => ([], none, false)
    | some (codes, bad, payload') =>
      let r := walkBlocks len (b + 1) rest payload'
      (codes :: r.1, if bad then some b else r.2.1, r.2.2)

def pressedFault (tile reason block : Nat) : FaultInfo :=
  { cls := .pressedBlock, reason := reason, detail := BitVec.ofNat 64 (tile % 2 ^ 32 + 2 ^ 32 * block) }

/-- The checks of R66 on a record and its index entry, orders 2 to 6, and the tile. -/
def decodeRecord (tile entryLen entryCrc : Nat) (scales rec : List Byte) : Except FaultInfo PressedTile :=
  let code := leAt rec 2 1
  let len := blockLen code
  let n := 16384 / len
  let whole := fun (r : Nat) => Except.error (pressedFault tile r 0xFFFF)
  if leAt rec 0 2 ≠ 0xA5C3 ∨ leAt rec 3 1 ≠ 0 ∨ leAt rec 12 4 ≠ 0 ∨ 2 < code ∨ leAt rec 4 2 ≠ n ∨ leAt rec 6 2 ≠ n / 2 then
    whole 2
  else
    let modes := fields 4 n (leAt rec 16 (n / 2))
    match modes.findIdx? (fun m => decide (3 < m)) with
    | some b => .error (pressedFault tile 3 b)
    | none =>
      let declared := leAt rec 8 4
      let limit := min declared (entryLen - 16 - n / 2)
      let sc := (List.range n).map (scaleAt scales)
      let w := walkBlocks len 0 (modes.zip (sc.map (· / 64))) ((rec.drop (16 + n / 2)).take limit)
      match w.2.1 with
      | some b => .error (pressedFault tile 5 b)
      | none =>
        if w.2.2 = false ∨ limit ≠ declared ∨ entryLen ≠ 16 + n / 2 + declared + 2 then whole 4
        else
          let sum := leAt rec (16 + n / 2 + declared) 2
          if crc16 (rec.take (16 + n / 2 + declared)) ≠ sum ∨ sum ≠ entryCrc then whole 6
          else .ok { len := len, scales := sc, codes := w.1 }

/-- Tile number tile of the region at a global address, with its scales at a generic address (R60, R65, R66). -/
def State.readTile (s : State) (t : Team) (g : Group) (region tile : Nat) (scales : DWord) : Except Stop PressedTile :=
  let d := t.die.val
  let p := t.partition.val
  match s.engineUse d p (region + 8 * tile) 8 with
  | .error e => .error e
  | .ok entry =>
    let at' := region + 16 * leAt entry 0 4
    match s.engineUse d p at' 16 with
    | .error e => .error e
    | .ok head =>
      let code := leAt head 2 1
      let n := if 2 < code then 1 else 16384 / blockLen code / 128
      match s.scaleFault t scales n with
      | some f => .error (.fault f)
      | none =>
        match s.scaleBytes t g scales n with
        | .error e => .error e
        | .ok sc =>
          if leAt entry 4 2 < 2130 ∨ 10514 < leAt entry 4 2 then .error (.fault (pressedFault tile 1 0xFFFF))
          else
            match s.engineUse d p at' (leAt entry 4 2) with
            | .error e => .error e
            | .ok rec =>
              match decodeRecord tile (leAt entry 4 2) (leAt entry 6 2) sc rec with
              | .error f => .error (.fault f)
              | .ok x => .ok x

/-- The elements of a tile in order, with their scale bytes. -/
def PressedTile.elements (x : PressedTile) : List (Nat × Nat) :=
  (x.codes.zip x.scales).flatMap fun c => c.1.map fun k => (k, c.2)

/-- XPAND's element of type t (R57, R293). -/
def xpandElem (t : ETy) (rm : Nat) (sat ftz : Bool) (e : Nat × Nat) : Nat :=
  match q4Scale e.2 with
  | none => canonNan t
  | some k => (packVal t rm sat ftz false (scaleVal (elemVal .q4 e.2 e.1) k)).1

/-! Sums (R315, R316). -/

/-- An exact sum of products under way: a NaN or an invalid product, infinite products of each sign, and the finite
part. -/
structure Acc where
  nan : Bool := false
  pos : Bool := false
  neg : Bool := false
  sum : FVal := .fin false 0 0
  deriving DecidableEq, Repr

def Acc.add (a : Acc) (x y : FVal) : Acc :=
  match (mulVal x y).1 with
  | .nan _ => { a with nan := true }
  | .inf n => if n then { a with neg := true } else { a with pos := true }
  | v => { a with sum := (addVal 1 a.sum v).1 }

/-- T of a chunk: its products and the scales of its two blocks, none for a NaN scale (R315, R316). -/
def chunkSum (xs ys : List FVal) (k : Option Int) : FVal :=
  let a := (xs.zip ys).foldl (fun a p => a.add p.1 p.2) ({} : Acc)
  match k with
  | none => .nan false
  | some k =>
    if a.nan || (a.pos && a.neg) then .nan false
    else if a.pos then .inf false
    else if a.neg then .inf true
    else
      match a.sum with
      | .fin n m e => if m = 0 then .fin false 0 0 else unpack .f32 false (roundTo .f32 1 false false n m (e + k)).1
      | v => v

/-- acc + T, rounded once (R316). -/
def accAdd (acc : Nat) (t : FVal) : Nat := (finish .f32 1 false false [] (addVal 1 (unpack .f32 false acc) t)).1

def bothScales (a b : Option Int) : Option Int :=
  match a, b with
  | some x, some y => some (x + y)
  | _, _ => none

end Sys2Proof.Machine
end

