-- ==== Sys2Proof/Machine/Sums.lean ====
section
/-! DEFINITION. Rows, columns and sums of the matrix units (R307, R310, R311, R315, R326). -/

namespace Sys2Proof.Machine

/-! Elements. -/

def isMatType : ETy → Bool
  | .f16 | .bf16 | .e4m3 | .e5m2 | .q4 | .mx4 => true
  | _ => false

def isBlockType : ETy → Bool
  | .q4 | .mx4 => true
  | _ => false

/-- K (R307). -/
def kOf (t : ETy) : Nat := 512 / t.bits

/-- Scale exponent of a block from its scale byte; 0 for a type without blocks. -/
def scaleOf (t : ETy) (b : Nat) : Option Int :=
  match t with
  | .q4 => q4Scale b
  | .mx4 => mx4Scale b
  | _ => some 0

/-- Values of n elements packed in bytes; block g has scale byte sc g (R310). -/
def rowVals (t : ETy) (len n : Nat) (sc : Nat → Nat) (bs : List Byte) : List FVal :=
  (fields t.bits n (fromLE bs)).zipIdx.map fun x => elemVal t (sc (x.2 / len)) x.1

/-- One accumulator: chunks of c elements in ascending order (R315). -/
def dotRow (acc : Nat) (xs ys : List FVal) (c : Nat) (scale : Nat → Option Int) : Nat :=
  (List.range (xs.length / c)).foldl
    (fun a q => accAdd a (chunkSum ((xs.drop (q * c)).take c) ((ys.drop (q * c)).take c) (scale q))) acc

/-- i0 and i1 of group j of a 2:4 row (R311). -/
def sparseAt (md j : Nat) : Nat × Nat := (md / 2 ^ (4 * j) % 4, md / 2 ^ (4 * j + 2) % 4)

/-- R311: the dense row of 64 bytes; none when i0 ≥ i1 in some group. -/
def widenRow (t : ETy) (bs : List Byte) : Option (List Byte) :=
  let k := kOf t
  let kept := fields t.bits (k / 2) (fromLE (bs.take 32))
  let md := fromLE (bs.drop 32)
  let js := List.range (k / 4)
  if js.any fun j => decide ((sparseAt md j).1 ≥ (sparseAt md j).2) then none
  else
    let es := js.flatMap fun j => (List.range 4).map fun i =>
      if i = (sparseAt md j).1 then kept.getD (2 * j) 0
      else if i = (sparseAt md j).2 then kept.getD (2 * j + 1) 0 else 0
    some (toLE 64 (es.reverse.foldl (fun x e => x * 2 ^ t.bits + e) 0))

/-- Bytes of n lane registers from a. -/
def Slice.laneBytes (x : Slice) (b : Nat) (a : LReg) (n : Nat) (j : Fin 4) : List Byte :=
  (List.range n).flatMap fun i => toLE 4 ((x.lane j).get (x.phys b (Fin.ofNat 64 (a.val + i)))).toNat

/-- Scale tiles of an operand of n rows or columns (R309). -/
def scaleTiles (t : ETy) (blen n : Nat) : Nat := (n * (kOf t / blockLen blen) + 127) / 128

/-! Accumulator rows (R313, R315, R326). -/

/-- Scale byte b of the region at a generic address (R58, R59). -/
def State.scaleByte (s : State) (t : Team) (g : Group) (region : DWord) (b : Nat) : Nat :=
  fromLE ((s.chipBytes t g (region + BitVec.ofNat 64 (128 * (b / 128) + swizzle (b % 128))) 1).map (·.1))

/-- Elements of a block, and of a chunk of a sum (R308, R315). -/
def MatJob.lenA (j : MatJob) : Nat := if isBlockType j.typeA then blockLen j.blenA else kOf j.typeA
def MatJob.lenB (j : MatJob) : Nat := if isBlockType j.typeB then blockLen j.blenB else kOf j.typeB
def MatJob.chunk (j : MatJob) : Nat :=
  if isBlockType j.typeA then (if isBlockType j.typeB then min j.lenA j.lenB else j.lenA)
  else if isBlockType j.typeB then j.lenB else 32

/-- The scale byte of block b of row or column n of an operand; 0 for a type without blocks. -/
def State.scaleIn (s : State) (t : Team) (g : Group) (ty : ETy) (region : DWord) (len n b : Nat) : Nat :=
  if isBlockType ty then s.scaleByte t g region (n * (kOf ty / len) + b) else 0

/-- Row L of A with its values (R310). -/
def State.rowOf (s : State) (t : Team) (g : Group) (j : MatJob) (lane : Nat) : List FVal :=
  rowVals j.typeA j.lenA (kOf j.typeA) (s.scaleIn t g j.typeA j.scaleA j.lenA lane) (((j.rows.find? (·.1 == lane)).map (·.2)).getD [])

/-- Column n of B with its values (R312). -/
def State.colOf (s : State) (t : Team) (g : Group) (j : MatJob) (n : Nat) : List FVal :=
  rowVals j.typeB j.lenB (kOf j.typeB) (s.scaleIn t g j.typeB j.scaleB j.lenB n)
    ((s.chipBytes t g (j.addrB + BitVec.ofNat 64 (64 * n)) 64).map (·.1))

/-- D(L, n) from the accumulator's bits (R315). -/
def State.dotAt (s : State) (t : Team) (g : Group) (j : MatJob) (lane n acc : Nat) : Nat :=
  dotRow acc (s.rowOf t g j lane) (s.colOf t g j n) j.chunk fun q =>
    bothScales (scaleOf j.typeA (s.scaleIn t g j.typeA j.scaleA j.lenA lane (q * j.chunk / j.lenA)))
      (scaleOf j.typeB (s.scaleIn t g j.typeB j.scaleB j.lenB n (q * j.chunk / j.lenB)))

/-- Address of granule q of an accumulator row. -/
def rowGranule (a : DWord) (q : Nat) : DWord := a + BitVec.ofNat 64 (32 * q)

/-- The new bytes of granule q of a lane's accumulator row: the sums of eight columns (R326). -/
def State.accGranule (s : State) (t : Team) (g : Group) (j : MatJob) (a : Nat × DWord) (q : Nat) : List Byte :=
  let old := (s.chipBytes t g (rowGranule a.2 q) 32).map (·.1)
  (List.range 8).flatMap fun i => toLE 4 (s.dotAt t g j a.1 (8 * q + i) (leAt old (4 * i) 4))

end Sys2Proof.Machine
end

