-- ==== Sys2Proof/Machine/Order.lean ====
section
/-! DEFINITION. The order of a group's accesses (R264, R267, R269): the bytes that an operation still touches, the
operations that stand before it, and whether an access may be performed yet. -/

namespace Sys2Proof.Machine

/-! Places of bytes, whichever address led there (R269, R111). -/

inductive Room where
  | main | shared (team : Nat) | stack
  deriving DecidableEq, Repr

/-- len bytes of a room from byte lo. -/
structure Span where
  room : Room
  lo : Nat
  len : Nat
  deriving DecidableEq, Repr

def Span.meets (a b : Span) : Bool := a.room == b.room && decide (a.lo < b.lo + b.len) && decide (b.lo < a.lo + a.len)

/-- Two lists of spans have a common byte. -/
def spansMeet (a b : List Span) : Bool := a.any fun x => b.any x.meets

/-- The byte of main memory at an offset in a partition's scratchpad allocation on a die. -/
def State.scratchAddr (s : State) (p d off : Nat) : Nat := mainAddr d ((s.allocation p d).1 + off)

/-- n bytes at a place, for a team. -/
def State.span (s : State) (t : Team) (n : Nat) : Spot → Span
  | .chip .shared off => { room := .shared t.uid, lo := off, len := n }
  | .chip .stack off => { room := .stack, lo := off, len := n }
  | .chip _ off => { room := .main, lo := s.scratchAddr t.partition.val t.die.val off, len := n }
  | .main tg => { room := .main, lo := mainAddr tg.die tg.off, len := n }

def State.chipSpan (s : State) (t : Team) (a : DWord) (n : Nat) : Span := s.span t n (chipSpot a)

def State.spans (s : State) (t : Team) (ps : List (Spot × Nat)) : List Span := ps.map fun p => s.span t p.2 p.1

/-- Targets as places. -/
def mains (ts : List (Target × Nat)) : List (Spot × Nat) := ts.map fun t => (.main t.1, t.2)

/-- n bytes of the global window, as the tables lead to them now; a page that faults has none. -/
def State.globalSpans (s : State) (t : Team) (acc : Access) (va n : Nat) : List Span :=
  let k := belowTop va n
  s.spans t (mains (s.runs t.die.val t.partition.val acc (pageFuel va k) va k).1)

/-- n bytes at a generic address. -/
def State.anySpans (s : State) (t : Team) (acc : Access) (a : DWord) (n : Nat) : List Span :=
  match spaceOf a with
  | (.global, va) => s.globalSpans t acc va n
  | _ => [s.chipSpan t a n]

/-! What an operation still touches. -/

def MemAct.reads : MemAct → Bool
  | .store _ => false
  | _ => true

def MemAct.writes : MemAct → Bool
  | .load => false
  | _ => true

def Source.spans (s : State) (t : Team) : Source → List Span
  | .mem ps => s.spans t ps
  | .data _ => []

def State.chunkSpans (s : State) (t : Team) (c : Chunk) : List Span := s.span t c.n c.dst :: c.src.spans s t

/-- The bytes that an expansion or a stream reads for tile i of a region: its index entry, its record as the entry stands,
and its scales (R65, R66). -/
def State.tileSpans (s : State) (t : Team) (region tile : Nat) (scales : DWord) : List Span :=
  let e := s.globalSpans t .read (region + 8 * tile) 8
  let entry := match e with
    | x :: _ => (s.readMain none x.lo 8).map (·.1)
    | [] => []
  e ++ s.globalSpans t .read (region + 16 * leAt entry 0 4) (max 16 (leAt entry 4 2)) ++ s.anySpans t .read scales 512

/-- The bytes of row i's index, and of the row that it names (R292). -/
def GatherJob.indexSpot (j : GatherJob) (i : Nat) : Spot := (chipSpot j.index).shift (4 * i)
def State.rowStart (s : State) (t : Team) (g : Group) (j : GatherJob) (i : Nat) : Nat :=
  j.src.toNat + fromLE ((s.readSpot t g 4 (j.indexSpot i)).map (·.1)) * j.stride

/-- The place of n bytes at an offset in a landing's target. -/
def State.landingSpan (s : State) (l : Landing) (off n : Nat) : Span :=
  match l.team with
  | some uid => { room := .shared uid, lo := off, len := n }
  | none => { room := .main, lo := s.scratchAddr l.partition.val l.dstDie.val off, len := n }

/-- Bytes of the object that a landing updates (R261, R263). -/
def Landing.objectBytes (l : Landing) : Nat := if l.put then 8 else 16

/-- What a landing still writes of the bytes that have been read, and its object. -/
def State.landingSpans (s : State) (l : Landing) : List Span :=
  s.landingSpan l l.object l.objectBytes :: l.parts.map fun p => s.landingSpan l p.1 p.2.length

/-- Bytes of B and of the scale regions of a matrix operation (R309, R312). -/
def State.operandSpans (s : State) (t : Team) (j : MatJob) : List Span :=
  [s.chipSpan t j.addrB (64 * j.cols)] ++
  (if isBlockType j.typeA then [s.chipSpan t j.scaleA (128 * scaleTiles j.typeA j.blenA (32 * j.members.length))] else []) ++
  (if isBlockType j.typeB then [s.chipSpan t j.scaleB (128 * scaleTiles j.typeB j.blenB j.cols)] else [])

/-- The granule of an accumulator row that an item of a matrix operation's work names. -/
def MatJob.granule (j : MatJob) (x : Nat × Nat) : DWord := rowGranule ((j.acc.getD x.1 (0, 0)).2) x.2

/-- The spans that a job still touches. -/
def State.jobSpans (s : State) (t : Team) (g : Group) : Job → List Span
  | .access _ parts _ => parts.map fun p => s.span t p.ty.bytes p.spot
  | .copy j =>
    j.todo.flatMap (s.chunkSpans t) ++ s.spans t j.held ++
    (if j.stop.isSome then [] else
      [s.chipSpan t ((if j.out then j.src else j.dst) + BitVec.ofNat 64 j.formed) (j.len - j.formed)] ++
      s.globalSpans t (if j.out then .write else .read) ((if j.out then j.dst else j.src).toNat + j.next) (j.len - j.next))
  | .gather j =>
    j.todo.flatMap (s.chunkSpans t) ++
    (if j.stop.isSome then [] else j.left.flatMap fun i =>
      s.span t 4 (j.indexSpot i) :: s.chipSpan t (j.dst + BitVec.ofNat 64 (i * j.rowLen)) j.rowLen ::
        s.globalSpans t .read (s.rowStart t g j i) j.rowLen)
  | .xpand j => match j.todo with
    | some cs => cs.flatMap (s.chunkSpans t)
    | none => s.chipSpan t j.dst (16384 * j.t.bytes) :: s.tileSpans t j.src.toNat j.tile j.scales
  | .rcopy j => j.left.flatMap fun p => s.chipSpan t (j.src + BitVec.ofNat 64 p.1) p.2 ::
      (match s.landing? j.landing with
        | some l => [s.landingSpan l (j.dst + p.1) p.2]
        | none => [])
  | .matrix j => if j.kind = .mmv then [] else s.operandSpans t j ++ j.todo.map fun x => s.chipSpan t (j.granule x) 32
  | _ => []

/-- The stream that an operation has bound (R320). -/
def Team.streamOf (t : Team) (g : Group) (o : Op) : Option Stream := t.streams.find? fun x => x.group == g.num && x.op == o.id

/-- Tiles of a stream that have been read. -/
def Stream.read (x : Stream) : Nat := x.delivered + x.ahead.length

/-- Access-path classes of what a job still accesses (R254). -/
def Job.classes : Job → List Nat
  | .access _ _ _ => [0]
  | .copy _ | .gather _ | .xpand _ => [1]
  | .rcopy _ => [2]
  | .matrix j => if j.kind = .mmv then [3, 4] else [3]
  | .stream _ => [4]
  | _ => []

/-- The job still reads. -/
def Job.stillReads : Job → Bool
  | .access _ parts _ => parts.any (·.act.reads)
  | .rcopy j => !j.left.isEmpty
  | .result _ | .vatPart _ _ | .fence _ _ _ => false
  | _ => true

/-- The operation has accesses that are still to be performed. -/
def Team.pending (t : Team) (g : Group) (o : Op) : Bool :=
  o.landing.isSome || (!o.returned && match o.job with
    | .access _ parts _ => !parts.isEmpty
    | .stream _ => match t.streamOf g o with
      | some x => x.fault.isNone && decide (x.read < x.count)
      | none => false
    | .matrix j => j.kind != .mmv || match t.streams.find? fun x => x.group == j.producer.1 && x.op == j.producer.2 with
      | some x => x.fault.isNone && decide (x.read ≤ j.tile)
      | none => false
    | j => !j.classes.isEmpty)

/-- What an operation and its landing still touch. -/
def State.opSpans (s : State) (t : Team) (g : Group) (o : Op) : List Span :=
  (if o.returned then [] else s.jobSpans t g o.job) ++
  (match o.landing.bind s.landing? with
    | some l => s.landingSpans l
    | none => [])

/-! Group order (R264). -/

/-- A set of slice numbers. -/
def sliceMask (ns : List Nat) : BitVec 8 := ns.foldl (fun m n => m ||| BitVec.ofNat 8 (2 ^ n)) 0

/-- The group's slices of a gang. -/
def Group.gangMask (g : Group) (gang : Nat) : BitVec 8 := sliceMask ((g.slices.filter (·.inGang gang)).map (·.num))

/-- The live slices of a group. -/
def Group.live (g : Group) : List Slice := g.slices.filter fun x => !x.exited
def Group.liveMask (g : Group) : BitVec 8 := sliceMask (g.live.map (·.num))

def Job.isFence : Job → Bool
  | .fence _ _ _ => true
  | _ => false

/-- Operations that stand in group order before what the given slices now do, and may have accesses left or order them. -/
def Group.priorTo (g : Group) (mask : BitVec 8) : List Nat :=
  (g.ops.filter fun o =>
    ((!o.returned && !o.job.classes.isEmpty) || o.landing.isSome || o.job.isFence) && o.after &&& mask != 0 &&
    decide (o.seq < g.issued)).map (·.id)

/-- Slices of a mask issue: what stands before this issue for one of them does for all (R264). -/
def Group.noteIssue (g : Group) (mask : BitVec 8) : Group :=
  { g with issued := g.issued + 1, ops := g.ops.map fun o => if o.after &&& mask != 0 then { o with after := o.after ||| mask } else o }

/-- An operation of a slice, which the slices of a mask execute. -/
def newOp (g : Group) (mask : BitVec 8) (x : Slice) (job : Job) (path : Option Path) (late : Bool) : Op :=
  { id := g.nextOp, seq := g.issued, after := mask, prior := g.priorTo mask, job := job, slice := x.num, offset := x.offset,
    word := ((x.wordAt 0).getD 0), ext := x.extAt 0, path := path, rflag := x.rflag, sflag := x.sflag, lateRead := late,
    returned := false, fault := none, parked := none, landing := none, early := [] }

/-- A group with an operation of a slice's gang appended. -/
def Group.addOpOf (g : Group) (mask : BitVec 8) (x : Slice) (job : Job) (path : Option Path) (late : Bool) : Group :=
  { g with ops := g.ops ++ [newOp g mask x job path late], nextOp := g.nextOp + 1 }

def Group.addOp (g : Group) (x : Slice) (job : Job) (path : Option Path) (late : Bool) : Group :=
  g.addOpOf (g.gangMask x.gang) x job path late

/-- An order between what the slices of a mask have done and what they do from here on (R267 items 4 and 6), while there
is something to order. -/
def Group.addFence (g : Group) (mask : BitVec 8) (x : Slice) (ord : Order) (classes : BitVec 6) (own : Bool) : Group :=
  if (g.priorTo mask).isEmpty then g
  else
    let o := newOp g mask x (.fence ord classes own) none false
    { g with ops := g.ops ++ [{ o with returned := true, rflag := none, sflag := none }], nextOp := g.nextOp + 1 }

/-! Whether an access may be performed. -/

def acquires : Order → Bool
  | .acq | .ar => true
  | _ => false

def releases : Order → Bool
  | .rel | .ar => true
  | _ => false

/-- The operation is an access of slice k: a vat's is one of every slice of its group (R254). -/
def Op.isOf (o : Op) (k : Nat) : Bool := o.slice == k || match o.job with
  | .matrix _ => true
  | _ => false

/-- An access that wants to be performed: its slice, class, whether it writes, the classes that it releases, its bytes. -/
structure Want where
  slice : Nat
  cls : Nat
  write : Bool
  rel : BitVec 6 := 0
  spans : List Span
  deriving DecidableEq, Repr

/-- The operation is before the access through R267 item 1, 2 or 3. -/
def State.holds (s : State) (t : Team) (g : Group) (w : Want) (a : Op) : Bool :=
  t.pending g a &&
  ((w.cls != 4 && a.job.classes.contains w.cls && spansMeet (s.opSpans t g a) w.spans) ||
   (w.cls == 0 && match a.job with
     | .access ord parts _ => acquires ord && parts.any (·.act.reads)
     | _ => false) ||
   a.job.classes.any fun c => bit w.rel c)

/-- A fence that names both classes orders the operation before the access (R267 items 4 and 6). -/
def Team.fenced (t : Team) (g : Group) (w : Want) (f a : Op) : Bool :=
  match f.job with
  | .fence ord cs own =>
    t.pending g a && bit cs w.cls && a.job.classes.any (fun c => bit cs c) &&
    (match ord with
      | .rel => w.write
      | .acq => a.job.stillReads && !a.returned
      | _ => true) &&
    (!own || (a.isOf f.slice && w.slice == f.slice))
  | _ => false

/-- Some access that R267 orders before this one has not been performed: the operations before it are those of a list. -/
def State.blocked (s : State) (t : Team) (g : Group) (prior : List Nat) (w : Want) : Bool :=
  prior.any fun k => match g.op? k with
    | none => false
    | some a => s.holds t g w a || a.prior.any fun k => match g.op? k with
      | some b => t.fenced g w a b
      | none => false

end Sys2Proof.Machine
end

