-- ==== Sys2Proof/Machine/Move.lean ====
section
/-! DEFINITION. One movement of an operation: an access of a lane or slice performed (R255, R277 to R281), a granule moved
or a page, row or tile opened by an engine (R259, R260, R290 to R293), a granule of accumulators written (R326), a tile
read ahead (R68, R320). What a movement brings about in the group stands in Ops.lean and Engines.lean. -/

namespace Sys2Proof.Machine

/-! Values. -/

/-- The new value of an atomic on values of type t (R280). -/
def atomNew (op : AtomOp) (t : ETy) (rm : Nat) (old b : Nat) : Nat :=
  match op with
  | .add =>
    if t.isFloat then (finish t rm false false [] (addVal rm (unpack t false old) (unpack t false b))).1
    else (old + b) % 2 ^ t.bits
  | .min => if intOf t b < intOf t old then b else old
  | .max => if intOf t old < intOf t b then b else old
  | .and => old &&& b
  | .or => old ||| b
  | .xor => old ^^^ b
  | .exch => b

/-- The bytes hold poison. -/
def anyPoison (bs : List (Byte × Bool)) : Bool := bs.any (·.2)

/-- The number that bytes stand for. -/
def valueOf (bs : List (Byte × Bool)) : Nat := fromLE (bs.map (·.1))

/-- The bytes that an act writes over old ones, when it writes: an atomic or compare-and-swap that finds poison writes
nothing (R276). -/
def MemAct.write (a : MemAct) (t : ETy) (old : List (Byte × Bool)) : Option (List (Byte × Bool)) :=
  match a with
  | .load => none
  | .store bs => some bs
  | .atom op rm b => if anyPoison old then none else some (clean (toLE t.bytes (atomNew op t rm (valueOf old) b)))
  | .cas c v => if anyPoison old || valueOf old != c then none else some (clean (toLE t.bytes v))

/-- The write with its value and poison. -/
def RegWrite.withValue (w : RegWrite) (x : Word) (p : Bool) : RegWrite :=
  match w with
  | .lane sl j i _ _ => .lane sl j i x p
  | .scalar sl k _ _ => .scalar sl k x p

/-- The register writes of a value of type t that has been read (R191, R273, R276). -/
def valueWrites (t : ETy) (dst : List RegWrite) (old : List (Byte × Bool)) : List RegWrite :=
  let r := regOf t (valueOf old)
  (dst.zip [r.1, r.2]).map fun w => w.1.withValue w.2 (anyPoison old)

/-! Lane-class accesses. -/

def State.partWant (s : State) (t : Team) (o : Op) (ord : Order) (p : Part) : Want :=
  { slice := o.slice, cls := 0, write := p.act.writes, rel := if releases ord && p.act.writes then 1 else 0,
    spans := [s.span t p.ty.bytes p.spot] }

/-- The access part performed: its bytes, its value on the way to its registers. -/
def State.doPart (s : State) (uid n id : Nat) (p : Part) : State × List RegWrite :=
  match s.opAt uid n id with
  | none => (s, [])
  | some (t, g, _) =>
    let s1 := s.visit t.die.val p.spot
    let old := s1.readSpot t g p.ty.bytes p.spot
    (match p.act.write p.ty old with
      | some bs => s1.writeSpot uid n bs p.spot
      | none => s1, valueWrites p.ty p.dst old)

/-- Access k of an operation, performed when its order allows; the operation returns with the last one. The registers are
written when that return is looked at (Ops.lean). -/
def State.performPart (s : State) (uid n id k : Nat) : Option State :=
  match s.opAt uid n id with
  | none => none
  | some (t, g, o) =>
    match o.job with
    | .access ord parts w =>
      match parts[k]? with
      | none => none
      | some p =>
        if o.returned || s.blocked t g o.prior (s.partWant t o ord p) then none
        else
          let r := s.doPart uid n id p
          some (r.1.updOp uid n id fun o => { o with job := .access ord (parts.eraseIdx k) (w ++ r.2) })
    | _ => none

/-! What an engine sees. -/

/-- The state as an operation's engine sees it: granules that it has read ahead hold what they held then (R270). -/
def State.seenBy (s : State) (t : Team) (g : Group) (o : Op) : State × Team × Group :=
  let s1 := o.early.foldl (fun (s : State) e => match e.bytes with
    | some bs => s.writeSpot t.uid g.num bs e.spot
    | none => s) s
  let t1 := (s1.team? t.uid).getD t
  (s1, t1, (t1.group? g.num).getD g)

/-- The requests of an engine for n bytes at a place, one for each 32-byte granule (R338). -/
def State.visits (s : State) (d : Nat) (p : Spot × Nat) : State :=
  match p.1 with
  | .main tg => (granules tg.off p.2).foldl (fun (s : State) _ => s.roundTrip d tg.die) s
  | .chip _ _ => s

/-- The same for spans of main memory. -/
def State.visitSpans (s : State) (d : Nat) (ps : List Span) : State :=
  ps.foldl (fun (s : State) p =>
    if p.room = .main ∧ p.lo / 2 ^ 48 ≠ d then
      (granules p.lo p.len).foldl (fun (s : State) _ => s.roundTrip d (p.lo / 2 ^ 48)) s
    else s) s

/-- The bytes of a source. -/
def Source.read (s : State) (t : Team) (g : Group) : Source → List (Byte × Bool)
  | .mem ps => ps.flatMap fun p => s.readSpot t g p.2 p.1
  | .data bs => bs

/-- The bytes of a chunk, and the state after the requests that it makes. -/
def State.chunkBytes (s : State) (t : Team) (g : Group) (o : Op) (c : Chunk) : State × List (Byte × Bool) :=
  let v := s.seenBy t g o
  let s1 := match c.src with
    | .mem ps => ps.foldl (fun (s : State) p => s.visits t.die.val p) s
    | .data _ => s
  (s1.visits t.die.val (c.dst, c.n), c.src.read v.1 v.2.1 v.2.2)

/-- A chunk moved. -/
def State.moveChunk (s : State) (t : Team) (g : Group) (o : Op) (c : Chunk) : State :=
  let r := s.chunkBytes t g o c
  r.1.writeSpot t.uid g.num r.2 c.dst

/-! Chunks. -/

/-- The pieces of the first n bytes of a list of places, and those of the others. -/
def splitPlaces : Nat → List (Spot × Nat) → List (Spot × Nat) × List (Spot × Nat)
  | _, [] => ([], [])
  | n, (x, k) :: r =>
    if n = 0 then ([], (x, k) :: r)
    else if n < k then ([(x, n)], (x.shift n, k - n) :: r)
    else
      let q := splitPlaces (n - k) r
      ((x, k) :: q.1, q.2)

def Spot.offset : Spot → Nat
  | .chip _ off => off
  | .main t => t.off

/-- The chunks that take n bytes from places to places; fuel bounds their number. -/
def chunksOf : Nat → List (Spot × Nat) → List (Spot × Nat) → Nat → List Chunk
  | 0, _, _, _ => []
  | fuel + 1, dst, src, n =>
    match dst with
    | [] => []
    | (x, _) :: _ =>
      if n = 0 then []
      else
        let k := min n (32 - x.offset % 32)
        let q := splitPlaces k src
        { dst := x, n := k, src := .mem q.1 } :: chunksOf fuel (splitPlaces k dst).2 q.2 (n - k)

def chunksFor (dst src : List (Spot × Nat)) (n : Nat) : List Chunk := chunksOf (n / 32 + 2) dst src n

/-- Bytes at hand as chunks from a place on. -/
def dataChunks (x : Spot) : Nat → List (Byte × Bool) → List Chunk
  | 0, _ => []
  | fuel + 1, bs =>
    if bs.isEmpty then []
    else
      let k := 32 - x.offset % 32
      { dst := x, n := min k bs.length, src := .data (bs.take k) } :: dataChunks (x.shift k) fuel (bs.drop k)

/-! Copies (R259, R290, R291). -/

def CopyJob.main (j : CopyJob) : DWord := if j.out then j.dst else j.src
def CopyJob.chip (j : CopyJob) : DWord := if j.out then j.src else j.dst

/-- The translated bytes below n as chunks. -/
def CopyJob.form (j : CopyJob) (n : Nat) : CopyJob :=
  let k := n - j.formed
  let chip := [((chipSpot j.chip).shift j.formed, k)]
  { j with todo := j.todo ++ (if j.out then chunksFor j.held chip k else chunksFor chip j.held k),
           held := (splitPlaces k j.held).2, formed := n }

/-- The bytes of the copy up to n that fill granules of the destination; all of them at the copy's end. -/
def CopyJob.whole (j : CopyJob) (n : Nat) : Nat :=
  if n = j.len then n else n - (j.dst.toNat + n) % 32

/-- How opening a further page of a copy ends: the copy, or where it parks. -/
def State.openCopy (s : State) (t : Team) (j : CopyJob) : Except (Nat × WalkFault) CopyJob :=
  let va := j.main.toNat + j.next
  if 2 ^ 57 ≤ va then
    .ok { j.form j.next with stop := some (.fault { cls := .address, detail := BitVec.ofNat 64 va }) }
  else
    match s.openPage t.die.val t.partition.val (if j.out then .write else .read) va (min (j.len - j.next) (2 ^ 57 - va)) with
    | .error f =>
      if f.parks then .error (va, f)
      else .ok { j.form j.next with stop := some (.fault (f.info (BitVec.ofNat 64 va))) }
    | .ok ps =>
      let n := j.next + (ps.map (·.2)).sum
      let k : CopyJob := { j with next := n, held := j.held ++ mains ps }
      .ok (k.form (max j.formed (j.whole n)))

/-! Gathers (R292). -/

/-- Row i opened: its index is read and its bytes are translated. -/
def State.openRow (s : State) (t : Team) (g : Group) (j : GatherJob) (i : Nat) : Except (Nat × WalkFault) GatherJob :=
  let rest := { j with left := j.left.filter (· != i) }
  match poisonStop (j.index + BitVec.ofNat 64 (4 * i)).toNat (s.readSpot t g 4 (j.indexSpot i)) with
  | some e => .ok { rest with stop := some e }
  | none =>
    let va := s.rowStart t g j i
    let n := belowTop va j.rowLen
    let r := s.runs t.die.val t.partition.val .read (pageFuel va n) va n
    match r.2 with
    | some (a, f) =>
      if f.parks then .error (a, f) else .ok { rest with stop := some (.fault (f.info (BitVec.ofNat 64 a))) }
    | none =>
      if n < j.rowLen then
        .ok { rest with stop := some (.fault { cls := .address, detail := BitVec.ofNat 64 (max va (2 ^ 57)) }) }
      else
        .ok { rest with todo := j.todo ++ chunksFor [((chipSpot j.dst).shift (i * j.rowLen), j.rowLen)] (mains r.1) j.rowLen }

/-! Expansions (R293). -/

/-- The bytes of a decoded tile in the type of the expansion. -/
def XpandJob.bytes (j : XpandJob) (x : PressedTile) : List Byte :=
  x.elements.flatMap fun e => toLE j.t.bytes (xpandElem j.t j.rm j.sat j.ftz e)

/-! One movement. -/

/-- How a movement of an operation ends: the state after it, a page on which it parks, or nothing to do. -/
inductive Move where
  | moved (s : State)
  | park (va : Nat) (f : WalkFault)
  | none

/-- How a job ends, once nothing of it is left. -/
def Job.ending : Job → Option Stop
  | .access _ parts _ => if parts.isEmpty then some .done else none
  | .copy j =>
    if !j.todo.isEmpty then none else if j.stop.isSome then j.stop else if j.next ≥ j.len then some .done else none
  | .gather j =>
    if !j.todo.isEmpty then none else if j.stop.isSome then j.stop else if j.left.isEmpty then some .done else none
  | .xpand j => if j.todo = some [] then some .done else none
  | .rcopy j => if j.left.isEmpty then some .done else none
  | .matrix j => if j.kind ≠ .mmv ∧ j.todo.isEmpty then some .done else none
  | _ => none

/-- Every part of a vat's operation is marked: late sources read, and returned when ret. -/
def Team.markParts (t : Team) (owner op : Nat) (ret : Bool) : Team :=
  let part := fun (o : Op) => decide (o.job = Job.vatPart owner op)
  let mark := fun (g : Group) (o : Op) =>
    if part o || (g.num == owner && o.id == op) then { o with lateRead := false, returned := o.returned || (ret && part o) }
    else o
  t.mapGroups fun g => { g with ops := g.ops.map (mark g) }

/-- An operation ends: it has returned, in a fault or not; the parts of a vat's operation end with it. -/
def State.finishOp (s : State) (uid n id : Nat) (f : Option FaultInfo) : State :=
  let s1 := match (s.opAt uid n id).map (·.2.2.job) with
    | some (.matrix _) => s.updTeam uid (·.markParts n id true)
    | _ => s
  s1.updOp uid n id fun o => { o with returned := true, fault := f, early := [] }

/-- The operation with its job: it ends when nothing of that is left. -/
def State.setJob (s : State) (uid n id : Nat) (j : Job) : State :=
  let s1 := s.updOp uid n id fun o => { o with job := j }
  match j.ending with
  | some (.fault f) => s1.finishOp uid n id (some f)
  | some _ => s1.finishOp uid n id none
  | none => s1

def Job.chunks : Job → List Chunk
  | .copy j => j.todo
  | .gather j => j.todo
  | .xpand j => j.todo.getD []
  | _ => []

/-- The job without its chunk k. -/
def Job.dropChunk (k : Nat) : Job → Job
  | .copy j => .copy { j with todo := j.todo.eraseIdx k }
  | .gather j => .gather { j with todo := j.todo.eraseIdx k }
  | .xpand j => .xpand { j with todo := j.todo.map (·.eraseIdx k) }
  | j => j

/-- The stream's next tile is read ahead of its delivery, or the stream ends in a fault (R67, R68, R321; log 62). -/
def State.readAhead (s : State) (t : Team) (g : Group) (o : Op) (x : Stream) : Move :=
  let tile := x.first + x.read
  let scales := x.scales + BitVec.ofNat 64 (x.read * x.stride)
  let spans := s.tileSpans t x.region.toNat tile scales
  if x.fault.isSome || x.read ≥ x.count || s.blocked t g o.prior { slice := o.slice, cls := 4, write := false, spans := spans } then .none
  else
    let v := s.seenBy t g o
    let s1 := s.visitSpans t.die.val spans
    let put := fun (f : Stream → Stream) => s1.updTeam t.uid fun t =>
      { t with streams := t.streams.map fun y => if y.group = g.num ∧ y.op = o.id then f y else y }
    match v.1.readTile v.2.1 v.2.2 x.region.toNat tile scales with
    | .error (.park va f) => .park va f
    | .error (.fault f) => .moved ((put fun y => { y with fault := some f }).finishOp t.uid g.num o.id (some f))
    | .error .done => .none
    | .ok tile => .moved ((put fun y => { y with ahead := y.ahead ++ [tile] }).updOp t.uid g.num o.id fun o => { o with early := [] })

/-- A granule of an accumulator row is read, summed and written (R326): a lane's comes after those of lower lanes at the same
place. -/
def State.sumGranule (s : State) (t : Team) (g : Group) (o : Op) (j : MatJob) (k : Nat) : Move :=
  match j.todo[k]? with
  | none => .none
  | some x =>
    let a := j.granule x
    let w : Want := { slice := o.slice, cls := 3, write := true, spans := s.chipSpan t a 32 :: s.operandSpans t j }
    if (j.todo.take k).any (fun y => j.granule y == a) || s.blocked t g o.prior w then .none
    else
      let v := s.seenBy t g o
      let bs := v.1.accGranule v.2.1 v.2.2 j (j.acc.getD x.1 (0, 0)) x.2
      let s1 := s.writeSpot t.uid g.num (clean bs) (chipSpot a)
      let s2 := s1.updOp t.uid g.num o.id fun o => { o with early := o.early.filter fun e => e.spot != chipSpot a }
      .moved (s2.setJob t.uid g.num o.id (.matrix { j with todo := j.todo.eraseIdx k }))

/-- Movement pick of an engine's operation, when its order allows: the chunks at hand come first, then what is still to be
opened. -/
def State.engineStep (s : State) (uid n id pick : Nat) : Move :=
  match s.opAt uid n id with
  | none => .none
  | some (t, g, o) =>
    if o.returned || o.parked.isSome then .none
    else
      match o.job.chunks[pick]? with
      | some c =>
        if s.blocked t g o.prior { slice := o.slice, cls := 1, write := true, spans := s.chunkSpans t c } then .none
        else .moved ((s.moveChunk t g o c).setJob uid n id (o.job.dropChunk pick))
      | none =>
        match o.job with
        | .copy j =>
          if j.stop.isSome || j.next ≥ j.len then .none
          else match s.openCopy t j with
            | .error p => .park p.1 p.2
            | .ok k => .moved (s.setJob uid n id (.copy k))
        | .gather j =>
          match if j.stop.isSome then none else j.left[(pick - j.todo.length) % max 1 j.left.length]? with
          | none => .none
          | some i =>
            let v := s.seenBy t g o
            if s.blocked t g o.prior { slice := o.slice, cls := 1, write := false, spans := [s.span t 4 (j.indexSpot i)] } then .none
            else match v.1.openRow v.2.1 v.2.2 j i with
              | .error p => .park p.1 p.2
              | .ok k => .moved (s.setJob uid n id (.gather k))
        | .xpand j =>
          if j.todo.isSome then .none
          else
            let spans := s.tileSpans t j.src.toNat j.tile j.scales
            let v := s.seenBy t g o
            if s.blocked t g o.prior { slice := o.slice, cls := 1, write := false, spans := spans } then .none
            else match v.1.readTile v.2.1 v.2.2 j.src.toNat j.tile j.scales with
              | .error (.park va f) => .park va f
              | .error (.fault f) => .moved (s.finishOp uid n id (some f))
              | .error .done => .none
              | .ok x =>
                let bs := clean (j.bytes x)
                .moved ((s.visitSpans t.die.val spans).setJob uid n id (.xpand { j with todo := some (dataChunks (chipSpot j.dst) (bs.length / 32 + 2) bs) }))
        | .rcopy j =>
          match j.left[pick % max 1 j.left.length]? with
          | none => .none
          | some p =>
            let a := j.src + BitVec.ofNat 64 p.1
            if s.blocked t g o.prior { slice := o.slice, cls := 2, write := false, spans := [s.chipSpan t a p.2] } then .none
            else
              let v := s.seenBy t g o
              let bs := v.1.chipBytes v.2.1 v.2.2 a p.2
              let left := j.left.filter (· != p)
              let s1 := { s with landings := s.landings.map fun (l : Landing) =>
                if l.id = j.landing then { l with parts := l.parts ++ [(j.dst + p.1, bs)], filled := left.isEmpty } else l }
              .moved (s1.setJob uid n id (.rcopy { j with left := left }))
        | .matrix j =>
          if j.kind = .mmv then .none
          else if j.todo.isEmpty then .moved (s.finishOp uid n id none)
          else s.sumGranule t g o j (pick % max 1 j.todo.length)
        | .stream _ => match t.streamOf g o with
          | some x => s.readAhead t g o x
          | none => .none
        | _ => .none

/-! Making a group's lane-class accesses, for a trap's record (R353). -/

/-- The first list item that yields a state. -/
def firstState {α : Type} (f : α → Option State) : List α → Option State
  | [] => none
  | x :: r => match f x with
    | some s => some s
    | none => firstState f r

/-- Operations of a group with lane-class accesses left. -/
def Group.laneOps (g : Group) : List Op := g.ops.filter fun o => !o.returned && match o.job with
  | .access _ _ _ => true
  | _ => false

/-- The oldest access of the group that can be performed, or a movement of an operation that stands before one. -/
def State.settleStep (s : State) (uid n : Nat) : Option State :=
  match s.group? uid n with
  | none => none
  | some g =>
    let parts := g.laneOps.flatMap fun o => match o.job with
      | .access _ ps _ => (List.range ps.length).map fun k => (o.id, k)
      | _ => []
    match firstState (fun p => s.performPart uid n p.1 p.2) parts with
    | some t => some t
    | none => firstState (fun k => match s.engineStep uid n k 0 with
        | .moved t => some t
        | _ => none) (g.laneOps.flatMap (·.prior)).eraseDups

/-- Every lane-class access of the group that can be performed has been. -/
def State.settle (s : State) (uid n : Nat) : Nat → State
  | 0 => s
  | fuel + 1 =>
    match s.settleStep uid n with
    | some t => t.settle uid n fuel
    | none => s

end Sys2Proof.Machine
end

