-- ==== Sys2Proof/Machine/Ops.lean ====
section
/-! DEFINITION. The shared operations: fault records (R349, R350); operations that return (R132, R257); taking a trap and
returning from a held one (R353, R354, R368, R369). -/

namespace Sys2Proof.Machine

/-! Fault records. -/

/-- Class numbers of R352. -/
def FaultClass.code : FaultClass → Nat
  | .illegalInstruction => 0x01 | .illegalEncoding => 0x02 | .unimplementedGeneration => 0x03
  | .unimplementedCombination => 0x04 | .privilege => 0x05 | .dependence => 0x06 | .planeAlignment => 0x07
  | .branchTarget => 0x08 | .link => 0x09 | .spillOverflow => 0x0A | .codeIntegrity => 0x0B | .modeValue => 0x0C
  | .address => 0x0D | .apertureBound => 0x0E | .accessPath => 0x0F | .alignment => 0x10 | .page => 0x11
  | .translationFormat => 0x12 | .key => 0x13 | .permission => 0x14 | .writeProtection => 0x15
  | .remoteBound => 0x16 | .putTarget => 0x17 | .copyOperand => 0x18 | .scaleLayout => 0x19
  | .pressedBlock => 0x1A | .vat => 0x1B | .matrixOperand => 0x1C | .stream => 0x1D | .powerBudget => 0x1E
  | .barrier => 0x1F | .curdOverflow => 0x20 | .permuteSource => 0x21 | .poison => 0x22 | .signature => 0x23
  | .programTrap => 0x24 | .systemRegister => 0x25 | .debugStop => 0x26 | .clusterCheck => 0x27

/-- The word, or 0, and its extension in plane p at the slice's offset. -/
def Slice.recWords (sl : Slice) (p : Fin 4) : Word × Word := ((sl.wordAt p).getD 0, sl.extAt p)

/-- A record for a fault of a whole instruction or of a slice (R350). -/
def mkRec (g : Group) (sl : Slice) (p : Fin 4) (f : FaultInfo) : Rec :=
  { fault := f, group := BitVec.ofNat 8 g.num, slice := BitVec.ofNat 8 sl.num, plane := BitVec.ofNat 8 p.val,
    offset := sl.offset, word := (sl.recWords p).1, ext := (sl.recWords p).2, stop := sl.offset }

/-- Bit of lane j of slice n in a record's lane mask. -/
def laneBit (n : Nat) (j : Fin 4) : Word := BitVec.ofNat 32 (2 ^ (4 * n + j.val))

/-- A record for a fault of lane j. -/
def laneRec (g : Group) (sl : Slice) (p : Fin 4) (j : Fin 4) (f : FaultInfo) : Rec :=
  { mkRec g sl p f with lane := BitVec.ofNat 8 (4 * sl.num + j.val), laneMask := laneBit sl.num j }

/-- Lanes join the deferred set and their em bits are cleared; the slice keeps the record of its first deferred
instruction (R355). other says that one of them failed another check than poison. -/
def Slice.deferLanes (x : Slice) (mask : BitVec 4) (other : Bool) (r : Rec) : Slice :=
  if mask = 0 then x
  else
    let r1 : Rec := match x.dRec with
      | none => { r with flags := setBit r.flags 0 true }
      | some d => if x.dFresh then { d with laneMask := d.laneMask ||| r.laneMask } else { d with flags := setBit d.flags 4 true }
    { x with em := x.em &&& ~~~ mask, deferred := x.deferred ||| mask, dRec := some r1,
             dFresh := x.dRec.isNone || x.dFresh, dOther := x.dOther || other }

/-- The record of a late fault: it names the operation's own instruction (R283, R357). -/
def lateRec (g : Group) (o : Op) (f : FaultInfo) (stop : Word) : Rec :=
  { fault := f, group := BitVec.ofNat 8 g.num, slice := BitVec.ofNat 8 o.slice, offset := o.offset, word := o.word,
    ext := o.ext, stop := stop }

/-- The 64 bytes of a record (R350). -/
def Rec.bytes (r : Rec) (t : Team) (l : Launch) (counter : BitVec 48) (seq : Word) : List Byte :=
  toLE 2 r.fault.cls.code ++ toLE 1 r.fault.reason ++ toLE 1 r.flags.toNat ++ toLE 1 t.partition.val ++ toLE 1 t.die.val ++
  toLE 1 t.core ++ toLE 1 (match t.group? r.group.toNat with | some g => g.place.sub.val | none => 0) ++
  toLE 4 l.tag.toNat ++ toLE 4 l.num.toNat ++ toLE 4 t.lin ++ toLE 1 r.group.toNat ++ toLE 1 r.slice.toNat ++
  toLE 1 r.lane.toNat ++ toLE 1 r.plane.toNat ++ toLE 4 r.offset.toNat ++ toLE 4 l.version.toNat ++ toLE 4 r.word.toNat ++
  toLE 4 r.ext.toNat ++ toLE 4 r.laneMask.toNat ++ toLE 4 r.stop.toNat ++ toLE 8 r.fault.detail.toNat ++
  toLE 6 counter.toNat ++ toLE 2 seq.toNat

/-- Base and number of records of a ring register (R349, R393); none when size is 0. -/
def ringOf (r : DWord) : Option (Nat × Nat) :=
  if bits r 0 5 = 0 then none else some (bits r 12 45 * 2 ^ 12, 2 ^ bits r 0 5)

/-- A fault record of a team is written: the sequence number rises, the record is dropped or written, and the launch
keeps its first record's class and address (R349, R353, R413). The second value is the address, 0 when not written. -/
def State.record (s : State) (t : Team) (r : Rec) : State × DWord :=
  match s.launch? t.launch with
  | none => (s, 0)
  | some l =>
    let s1 := s.tick t.die.val
    let n := (s1.part t.partition.val).faultSeq
    let bs := r.bytes t l (s1.die t.die.val).counter n
    let s2 := s1.updPart t.partition.val fun x => { x with faultSeq := x.faultSeq + 1 }
    let w : State × DWord := match ringOf (s1.part t.partition.val).faultRing with
      | none => (s2, 0)
      | some (base, size) =>
        let a := base + 64 * (n.toNat % size)
        match s2.writeRecord t.die.val t.partition.val a bs with
        | (s3, true) => (s3, BitVec.ofNat 64 a)
        | (s3, false) => (s3, 0)
    (w.1.updLaunch t.launch fun x =>
      match x.first with
      | some _ => x
      | none => { x with first := some (BitVec.ofNat 8 r.fault.cls.code, w.2) }, w.2)

/-- A trace record of die d (R393, R394): kind, group number, tag, launch number, team and data. Nothing happens while
the ring's size is 0. -/
def State.trace (s : State) (d p kind group : Nat) (tag num team : Word) (data : DWord) : State :=
  match ringOf (s.part p).traceRing with
  | none => s
  | some (base, size) =>
    let s1 := s.tick d
    let n := (s1.part p).traceSeq
    let bs := toLE 1 kind ++ toLE 1 d ++ toLE 1 p ++ toLE 1 group ++ toLE 4 tag.toNat ++ toLE 4 num.toNat ++
      toLE 4 team.toNat ++ toLE 8 data.toNat ++ toLE 6 (s1.die d).counter.toNat ++ toLE 2 n.toNat
    ((s1.updPart p fun x => { x with traceSeq := x.traceSeq + 1 }).writeRecord d p (base + 32 * (n.toNat % size)) bs).1

/-! Operations that return. -/

def flagBit (f : Option (Fin 12)) : BitVec 12 :=
  match f with
  | some i => BitVec.ofNat 12 (2 ^ i.val)
  | none => 0

/-- Flags that an operation still holds: the result flag until it has returned, the source flag until its late sources
have been read (R132). -/
def Op.open (o : Op) : BitVec 12 :=
  (if o.returned then 0 else flagBit o.rflag) ||| (if o.lateRead then flagBit o.sflag else 0)

/-- Flags of slice n that outstanding operations hold. -/
def Group.openFlags (g : Group) (n : Nat) : BitVec 12 :=
  g.ops.foldl (fun m o => if o.slice = n then m ||| o.open else m) 0

/-- A flag clears once every operation it covers has completed and no clause in progress may add one (R132). -/
def Group.settleFlags (g : Group) : Group :=
  g.mapSlices fun x =>
    { x with f := x.f &&& (g.openFlags x.num ||| (if x.inClause then flagBit x.rflag ||| flagBit x.sflag else 0)) }

/-- What leaves of a group's operations, in the order of issue, and those that ended in a fault. A path's operations leave
in that order (R257); a remote copy or put that has left its path stays until it has landed, and a fence while an operation
that it orders before others stays (R262, R267). held are the paths of older operations, kept the older ones that stay. -/
def retireOps : List Op → List Path → List Nat → List Op × List Op
  | [], _, _ => ([], [])
  | o :: r, held, kept =>
    let ready := o.returned && !o.lateRead && (match o.path with | some p => !held.contains p | none => true)
    if !ready then
      let k := retireOps r (match o.path with | some p => p :: held | none => held) (o.id :: kept)
      (o :: k.1, k.2)
    else
      let faults := fun (l : List Op) => if o.fault.isSome then o :: l else l
      if o.landing.isSome || (o.job.isFence && o.prior.any kept.contains) then
        let k := retireOps r held (o.id :: kept)
        ({ o with path := none, fault := none } :: k.1, faults k.2)
      else
        let k := retireOps r held kept
        (k.1, faults k.2)

def Group.retire (g : Group) : Group :=
  let k := retireOps g.ops [] []
  let g' : Group := { g with ops := k.1, faulted := g.faulted ++ k.2 }
  g'.settleFlags

/-- The operation has left its path: nothing but an order of it remains. -/
def Op.cleared (o : Op) : Bool := o.returned && !o.lateRead && o.path.isNone

/-- Path counter of a group (R256, R257). -/
def Group.counter (g : Group) (p : Path) : Nat := (g.ops.filter (·.path == some p)).length

/-- One register write of an operation; a write for a slice that has exited is discarded (R236). -/
def RegWrite.apply (w : RegWrite) (g : Group) : Group :=
  match w with
  | .lane sl j i x p => g.updSlice sl fun y =>
    if y.exited then y else y.mapLanes fun k l => if k.val = j then l.put i x p else l
  | .scalar sl k x p => g.updSlice sl fun y =>
    if y.exited then y else { y with s := y.s.set k x, sp := setBit y.sp k.val p }

def applyWrites (g : Group) (ws : List RegWrite) : Group := ws.foldl (fun g w => w.apply g) g

/-- The register writes that an operation still has to make. -/
def Job.writes : Job → List RegWrite
  | .result w => w
  | .access _ _ w => w
  | _ => []

/-- A result that is on its way, or an access whose parts have all been performed. -/
def Job.readyBack : Job → Bool
  | .result _ => true
  | .access _ parts _ => parts.isEmpty
  | _ => false

/-- A variable-latency result or an access returns: its destinations are written (R193, R275). -/
def Group.returnOp (g : Group) (id : Nat) : Group :=
  match g.op? id with
  | some o => (applyWrites g o.job.writes).updOp id (fun o => { o with returned := true })
  | none => g

/-- Every variable-latency result of the group, and every access that has been performed, returns (R353: before a trap's
record is written). -/
def Group.returnAll (g : Group) : Group :=
  (g.ops.filter fun o => o.job.readyBack && !o.returned).foldl (fun g o => g.returnOp o.id) g |>.retire

/-- Movements that may be needed to make a group's lane-class accesses: a bound that is never reached. -/
def settleFuel : Nat := 2 ^ 40

/-- The older instructions of a group have changed state fully (R353). -/
def State.settled (s : State) (uid n : Nat) : State := (s.settle uid n settleFuel).updGroup uid n Group.returnAll

/-- The class is held by the debugger in this partition (R247, R368). -/
def State.debugOn (s : State) (p : Nat) : Bool := bit s.control (16 + p)

/-- A group terminated by a trap: its slices stop, its parked operations are abandoned, its issued ones complete
(R353). -/
def Group.terminate (g : Group) : Group :=
  let stop := fun (x : Slice) => { x with exited := true, hold := .none, dbg := .none, inClause := false }
  let abandon := fun (o : Op) =>
    if o.parked.isSome then { o with parked := none, returned := true, lateRead := false } else o
  let g' : Group := { g with trapped := true, slices := g.slices.map stop, ops := g.ops.map abandon, keep := none }
  g'.retire

/-- The streams that a group's abandoned operations have bound deliver no further tile (R321, R353). -/
def Team.abandonStreams (t : Team) (g : Group) : Team :=
  { t with streams := t.streams.map fun x =>
      match if x.group = g.num then (g.op? x.op).bind (·.parked) else none with
      | some va => { x with fault := some (x.fault.getD { cls := .page, detail := va }) }
      | none => x }

/-- A group is terminated, with the streams that its parked operations have bound (R353). -/
def State.terminateGroup (s : State) (uid n : Nat) : State :=
  match s.group? uid n with
  | none => s
  | some h => (s.updTeam uid (·.abandonStreams h)).updGroup uid n Group.terminate

/-- The group's slices held for the debugger after slices with the given numbers have stopped (R368): the others stop now, or
before their next synchronisation under slice stop. The group's gangs stay as they are (R176). -/
def Group.holdSlices (g : Group) (stopped : List Nat) (cls : FaultClass) (sliceStop : Bool) : Group :=
  g.mapSlices fun y =>
    if y.exited then y
    else if stopped.contains y.num then { y with dbg := .held cls, hold := .none }
    else match y.dbg with
      | .held _ => y
      | _ => { y with dbg := if sliceStop then .stopSoon else .stopped }

/-- A group stops for the debugger in the slices with the given numbers: a record that says so, and a debug event
(R244, R368). -/
def State.stopGroup (s : State) (t : Team) (n : Nat) (nums : List Nat) (r : Rec) : State :=
  let p := s.record t { r with flags := setBit r.flags 3 true }
  let l := s.launch? t.launch
  let stop := match l with
    | some l => bit l.policy 1
    | none => false
  (p.1.updGroup t.uid n (·.holdSlices nums r.fault.cls stop)).eventFrom t.die.val t.partition.val 8 r.fault.cls.code
    (match l with | some l => l.tag | none => 0) p.2

/-- TAKING A TRAP (R353, R354, R368) in slices of the group that its record names: older instructions have changed state
fully, variable-latency results among them, one record is written, and the group is terminated, or held stopped while its
partition's debug bit is set. A group takes one trap. The team's rendezvous are looked at afterwards (Rendezvous.lean). -/
def State.trapSlices (s : State) (uid : Nat) (r : Rec) (nums : List Nat) : State :=
  match s.team? uid with
  | none => s
  | some t =>
    let n := r.group.toNat
    match t.group? n with
    | none => s
    | some g =>
      if g.trapped || g.ended then s
      else
        let s1 := s.settled uid n
        if s.debugOn t.partition.val then s1.stopGroup t n nums r
        else
          let p := s1.record t r
          let s2 := p.1.updLaunch t.launch fun l => { l with failed := true }
          s2.terminateGroup uid n

/-- A trap in the slice that its record names; a record without a slice speaks of all that are live (R324). -/
def State.trapGroup (s : State) (uid : Nat) (r : Rec) : State :=
  s.trapSlices uid r (if r.slice = 0xFF then
    match s.group? uid r.group.toNat with
    | some g => g.live.map (·.num)
    | none => []
  else [r.slice.toNat])

/-- The record that a slice traps with: that of its older deferred fault when it has one (R356), stopped here. -/
def Slice.trapRec (sl : Slice) (r : Rec) : Rec :=
  match sl.dRec with
  | some d => if sl.deferred = 0 then r else { d with stop := sl.offset }
  | none => r

/-- Precise traps of several slices: in each group the lowest slice is recorded (R274, R354). -/
def State.trapAll (s : State) (uid : Nat) : List (Slice × Rec) → State
  | [] => s
  | (sl, r) :: rest => (s.trapGroup uid (sl.trapRec r)).trapAll uid rest

/-- A held slice goes on (R369): after a BRK, a step, or a held program trap at the next word. -/
def Slice.resume (sl : Slice) : Slice :=
  match sl.dbg with
  | .held .programTrap => { sl.done with dbg := .none }
  | _ => { sl with dbg := .none }

/-- RETURNING FROM A HELD TRAP: Resume releases every stopped slice of the group; a held trap of a class other than a
program trap cannot be resumed (R369). -/
def Group.resumable (g : Group) : Bool :=
  g.slices.any (fun x => x.dbg != .none) &&
  g.slices.all fun x => match x.dbg with
    | .held c => c == .debugStop || c == .programTrap
    | _ => true

def Group.resume (g : Group) : Group := g.mapSlices Slice.resume

/-! Waits for path counters (R183, R257, R283). -/

/-- Gangs of a group that wait on a path and may go on. -/
def Group.readyPathGangs (g : Group) : List Nat :=
  g.gangs.filter fun k =>
    let m := g.slices.filter (·.inGang k)
    m.any (fun x => match x.hold with | .path _ _ => true | _ => false) &&
    m.all fun x => match x.hold with
      | .path p th => decide (g.counter p ≤ th)
      | _ => true

/-- The oldest operation of a path that ended in a fault and has been observed returned (R283). -/
def Group.oldestFault (g : Group) (p : Path) : Option Op := g.faulted.find? (·.path == some p)

/-- A fault of an operation has been observed: a stream that it ended is no longer bound (R320). -/
def State.observe (s : State) (uid n : Nat) (o : Op) : State :=
  s.updTeam uid fun t => { t with streams := t.streams.filter fun x => !(x.group == n && x.op == o.id) }

/-- A gang's WAITP completes: it raises the oldest observed fault of its path, once, or goes on (R283). -/
def State.endWaitp (s : State) (uid n k : Nat) : State :=
  match s.group? uid n with
  | none => s
  | some g =>
    let mine := g.slices.filter (·.inGang k)
    match mine.head? with
    | none => s
    | some sl =>
      match sl.hold with
      | .path p _ =>
        match g.oldestFault p with
        | some o =>
          let s1 := (s.observe uid n o).updGroup uid n fun g => { g with faulted := g.faulted.filter (·.id != o.id) }
          s1.trapSlices uid (lateRec g o (o.fault.getD { cls := .page }) sl.offset) (mine.map (·.num))
        | none => s.updGroup uid n fun g => (g.mapSlices fun x => if x.inGang k then x.done else x).settleFlags
      | _ => s

/-- A slice goes back to the instruction that it waited to finish. -/
def Slice.again (x : Slice) : Slice := { x with hold := .none, dbg := if x.dbg = .stepped then .stepping else x.dbg }

/-- The slices of a group that are held as a condition says go back to their instruction. -/
def Group.wakeIf (g : Group) (f : Slice → Bool) : Group := g.mapSlices fun x => if f x then x.again else x

/-- A group after some of its operations have returned: its counters fall, its flags clear, and its waits end. -/
def State.afterReturn (s : State) (uid n : Nat) : State :=
  let s1 := s.updGroup uid n Group.retire
  match s1.group? uid n with
  | none => s1
  | some g =>
    let s2 := g.readyPathGangs.foldl (fun t k => t.endWaitp uid n k) s1
    s2.updGroup uid n fun g => g.wakeIf fun x => match x.hold with
      | .pathFull p => decide (g.counter p < 63)
      | _ => false

end Sys2Proof.Machine
end

