-- ==== Sys2Proof/Machine/Engines.lean ====
section
/-! DEFINITION. What the movements of operations bring about in their group: returns, faults and parks (R257, R291, R353,
R359); granules read ahead (R68, R270); and the landing of remote copies and puts (R262, R263, R376). -/

namespace Sys2Proof.Machine

/-! Movements. -/

/-- The record of an operation that parks on a page fault (R359). -/
def State.parkRecord (s : State) (t : Team) (g : Group) (o : Op) (va : Nat) : State :=
  (s.record t { lateRec g o { cls := .page, detail := BitVec.ofNat 64 va } 0xFFFFFFFF with flags := 2 }).1

/-- An operation parks, and the record of a page fault is written; in a terminated group it is abandoned, and nothing is
recorded (R353, R354, R359). A write to a replicated page begins its collapse (R112). -/
def State.parkOp (s : State) (t : Team) (g : Group) (o : Op) (va : Nat) (f : WalkFault) : State :=
  let park := fun (s : State) => s.updOp t.uid g.num o.id fun o => { o with parked := some (BitVec.ofNat 64 va) }
  match f with
  | .collapse => park (s.beginCollapse t.die.val t.partition va)
  | .page =>
    if g.trapped then
      match (park s).group? t.uid g.num with
      | none => s
      | some h => ((s.updTeam t.uid (·.abandonStreams h)).finishOp t.uid g.num o.id none).afterReturn t.uid g.num
    else park (s.parkRecord t g o va)
  | _ => park s

/-- Groups that a finished operation's return concerns: its own, and for a vat's operation every member (R304). -/
def Op.concerns (o : Op) (n : Nat) : List Nat :=
  match o.job with
  | .matrix j => j.members
  | _ => [n]

/-- What follows a movement: a return is looked at in every group it concerns. -/
def State.afterMove (s : State) (uid n id : Nat) : State :=
  match s.opAt uid n id with
  | none => s
  | some (_, _, o) => if o.returned then (o.concerns n).foldl (fun (s : State) k => s.afterReturn uid k) s else s

/-- An access of a lane or slice is performed; with the last one of its operation the values reach their registers (R275). -/
def State.movePart (s : State) (uid n id k : Nat) : State :=
  match s.performPart uid n id k with
  | none => s
  | some s1 =>
    match (s1.opAt uid n id).map (·.2.2.job.readyBack) with
    | some true => (s1.updGroup uid n (·.returnOp id)).afterReturn uid n
    | _ => s1

/-- An engine makes a movement of an operation, unless its team's clock is stopped. -/
def State.engineOp (s : State) (uid n id pick : Nat) : State :=
  match s.opAt uid n id with
  | none => s
  | some (t, g, o) =>
    if t.frozen then s
    else
      match s.engineStep uid n id pick with
      | .moved s1 => s1.afterMove uid n id
      | .park va f => s.parkOp t g o va f
      | .none => s

/-! Requests under way to other units of the package (R270, R371, R377). -/

/-- The place of the granule at a generic address, for an engine's read. -/
def State.granuleAt (s : State) (t : Team) (a : DWord) : Option Spot :=
  let b := a - BitVec.ofNat 64 (a.toNat % 32)
  match spaceOf b with
  | (.global, va) => match s.translate t.die.val t.partition.val .read va with
    | .ok tg => some (.main tg)
    | .error _ => none
  | (.nowhere, _) => none
  | (sp, off) => if off + 32 ≤ s.bound t sp then some (.chip sp off) else none

/-- The class in which an operation reads its source. -/
def Job.readClass (j : Job) : Option Nat :=
  match j with
  | .access _ _ _ => none
  | j => j.classes.getLast?

/-- An engine's read of a granule ahead of its use: its request goes out, and a second time it is answered with what the
granule holds then (R68, R270). -/
def State.readEarly (s : State) (uid n id : Nat) (a : DWord) : State :=
  match s.opAt uid n id with
  | none => s
  | some (t, g, o) =>
    match o.job.readClass, s.granuleAt t a with
    | some c, some x =>
      if t.frozen || o.returned || o.parked.isSome ||
          s.blocked t g o.prior { slice := o.slice, cls := c, write := false, spans := [s.span t 32 x] } then s
      else
        match o.early.find? fun e => e.spot == x with
        | none => (s.visit t.die.val x).updOp uid n id fun o => { o with early := o.early ++ [{ spot := x, bytes := none }] }
        | some e =>
          if e.bytes.isSome then s
          else
            let v := s.readSpot t g 32 x
            s.updOp uid n id fun o => { o with early := o.early.map fun e => if e.spot = x then { e with bytes := some v } else e }
    | _, _ => s

/-- Whether an access or a chunk has a request under way. -/
def Job.sent : Job → Nat
  | .access _ parts _ => (parts.filter (·.sent)).length
  | j => (j.chunks.filter (·.sent)).length

/-- Requests of an operation that are outstanding (log 63). -/
def Op.outstanding (o : Op) : Nat := if o.returned then 0 else o.job.sent + (o.early.filter (·.bytes.isNone)).length

/-- Requests of a team that are outstanding: those of its operations and of its value waits. -/
def Team.outstanding (t : Team) : Nat :=
  (t.groups.map fun g => (g.ops.map Op.outstanding).sum + (g.slices.filter (·.asked)).length).sum

/-- Requests outstanding of a tile; the whey buffer holds the responses to as many as 256 (R376, R377). -/
def State.outstanding (s : State) (d : Fin 8) (c : Nat) : Nat :=
  ((s.teams.filter fun t => t.die == d && t.core == c).map Team.outstanding).sum

/-- Item k of a list marked as sent. -/
def markAt {α : Type} (f : α → α) (k : Nat) (l : List α) : List α := l.zipIdx.map fun x => if x.2 = k then f x.1 else x.1

/-- A chunk's request goes to a unit other than its tile. -/
def Chunk.leaves (c : Chunk) (t : Team) : Bool :=
  (c.dst.server t).isSome || match c.src with
    | .mem ps => ps.any fun p => (p.1.server t).isSome
    | .data _ => false

/-- The request of an access or of a chunk goes out, when its order allows and it leaves its tile. -/
def State.sendRequest (s : State) (uid n id pick : Nat) : State :=
  match s.opAt uid n id with
  | none => s
  | some (t, g, o) =>
    if t.frozen || o.returned || o.parked.isSome || s.outstanding t.die t.core ≥ 256 then s
    else
      match o.job with
      | .access ord parts w =>
        match parts[pick]? with
        | some p =>
          if (p.spot.server t).isNone || s.blocked t g o.prior (s.partWant t o ord p) then s
          else s.updOp uid n id fun o => { o with job := .access ord (markAt (fun p => { p with sent := true }) pick parts) w }
        | none => s
      | j =>
        match j.chunks[pick]? with
        | some c =>
          if !c.leaves t || s.blocked t g o.prior { slice := o.slice, cls := 1, write := true, spans := s.chunkSpans t c } then s
          else
            let f := markAt (fun (c : Chunk) => { c with sent := true }) pick
            s.updOp uid n id fun o => { o with job := match j with
              | .copy k => .copy { k with todo := f k.todo }
              | .gather k => .gather { k with todo := f k.todo }
              | .xpand k => .xpand { k with todo := k.todo.map f }
              | k => k }
        | none => s

/-! Landings (R262, R263). -/

/-- A landing is over: its operation no longer stands before others. -/
def State.dropLanding (s : State) (id : Nat) : State :=
  match s.landing? id with
  | none => s
  | some x =>
    let s1 := { s with landings := s.landings.filter (·.id != id) }
    s1.updGroup x.fromTeam x.fromGroup fun (g : Group) =>
      let h : Group := { g with ops := g.ops.map fun o => if o.landing = some id then { o with landing := none } else o }
      h.retire

def State.updLanding (s : State) (id : Nat) (f : Landing → Landing) : State :=
  { s with landings := s.landings.map fun x => if x.id = id then f x else x }

/-- What a landing wants to write: n bytes at an offset, and its object; a release names the lane and remote-copy classes. -/
def State.landWant (s : State) (x : Landing) (o : Op) (off n : Nat) : Want :=
  { slice := o.slice, cls := 2, write := true, rel := if x.rel then 5 else 0,
    spans := [s.landingSpan x off n, s.landingSpan x x.object x.objectBytes] }

/-- Bytes of a landing may land: those that are ordered before it have (R262, R263, R267). -/
def State.landingDue (s : State) (x : Landing) (off n : Nat) : Bool :=
  x.after.all (fun k => (s.landing? k).isNone) &&
  match (s.team? x.fromTeam).bind fun t => (t.group? x.fromGroup).bind fun g =>
      (g.ops.find? fun (o : Op) => o.landing == some x.id).map fun o => (t, g, o) with
  | some (t, g, o) => !s.blocked t g o.prior (s.landWant x o off n)
  | none => true

/-- The bytes at hand from an offset on, up to n granules of the destination, without a gap, and the other parts. -/
def takeRun : Nat → Nat → List (Nat × List (Byte × Bool)) → List (Byte × Bool) × List (Nat × List (Byte × Bool))
  | 0, _, ps => ([], ps)
  | n + 1, off, ps =>
    match ps.find? (·.1 == off) with
    | none => ([], ps)
    | some p =>
      let r := takeRun n (off + p.2.length) (ps.filter (·.1 != off))
      (p.2 ++ r.1, r.2)

/-- The barrier object's 16 bytes after a run of n bytes; last says that it is the copy's last run (R262). -/
def barrierUpdate (n : Nat) (last : Bool) (b : List Byte) : List Byte :=
  let pending := leAt b 8 8
  let w := BitVec.ofNat 64 (leAt b 0 8)
  let p := if n ≥ pending then 0 else pending - n
  let w1 := if pending = 0 then setBit w 62 true
    else if n ≥ pending then setBit (setBit w 62 (decide (n > pending))) 63 (!bit w 63)
    else w
  let w2 := if last then setBits w1 0 32 (bits w1 0 32 + 1) else w1
  toLE 8 w2.toNat ++ toLE 8 p

/-- A run of a remote copy lands, with its update (R262): up to the given number of granules from an offset on, of the bytes
that have been read. A landing for a die that has been reset since it was sent is discarded (R295, R381). -/
def State.landRun (s : State) (x : Landing) (off n : Nat) : State :=
  if (s.die x.dstDie.val).inc ≠ x.inc then s.dropLanding x.id
  else
    let r := takeRun n off x.parts
    if r.1.isEmpty || !s.landingDue x off r.1.length then s
    else
      let p := x.partition.val
      let s1 := (s.msg x.srcDie.val x.dstDie.val).writeMain none (s.scratchAddr p x.dstDie.val off) r.1
      let last := x.filled && r.2.isEmpty
      let ob := s1.scratchAddr p x.dstDie.val x.object
      let s2 := s1.writeMain none ob (clean (barrierUpdate r.1.length last ((s1.readMain none ob 16).map (·.1))))
      if last then s2.dropLanding x.id else s2.updLanding x.id fun y => { y with parts := r.2 }

/-- A put-discard (R297). -/
def State.discardPut (s : State) (x : Landing) : State :=
  (s.updDie x.dstDie.val fun d => { d with cPuts := d.cPuts + 1 }).dropLanding x.id

/-- Bytes written at an offset of a put's target, in scratchpad or in a team's shared memory (R263). -/
def State.putWrite (s : State) (x : Landing) (off : Nat) (bs : List (Byte × Bool)) : State :=
  match x.team with
  | none => s.writeMain none (s.scratchAddr x.partition.val x.dstDie.val off) bs
  | some uid => s.updTeam uid fun t =>
    { t with shared := t.shared.write off (bs.map (·.1)), sharedPoison := poisonAfter t.sharedPoison off bs }

/-- The counter of a put. -/
def State.putCounter (s : State) (x : Landing) : Nat :=
  match x.team with
  | none => fromLE ((s.readMain none (s.scratchAddr x.partition.val x.dstDie.val x.object) 8).map (·.1))
  | some uid => match s.team? uid with
    | some t => fromLE (t.shared.read x.object 8)
    | none => 0

/-- The counter rises once every byte of the put has landed (R263). -/
def State.putCount (s : State) (x : Landing) : State :=
  (s.putWrite x x.object (clean (toLE 8 (s.putCounter x + 1)))).dropLanding x.id

/-- Bytes of a put land, and when none is left its counter rises. -/
def State.putBytes (s : State) (x : Landing) (off n : Nat) : State :=
  if x.filled && x.parts.isEmpty then
    if s.landingDue x x.object 8 then s.putCount x else s
  else
    let r := takeRun n off x.parts
    if r.1.isEmpty || !s.landingDue x off r.1.length then s
    else (s.putWrite x off r.1).updLanding x.id fun y => { y with parts := r.2 }

/-- The whole of a put that its tile has admitted lands, when it may: for a put that a whey buffer has held (R376, R377). -/
def State.putAll (s : State) (x : Landing) : Nat → State
  | 0 => s
  | fuel + 1 =>
    match s.landing? x.id with
    | none => s
    | some y => (s.putBytes y ((y.parts.head?.map (·.1)).getD 0) (y.parts.length + 1)).putAll x fuel

/-- The team is saved: its tile's clock is stopped, or its image waits (R376). -/
def State.saved (s : State) (uid : Nat) : Bool :=
  match s.team? uid with
  | some t => t.frozen
  | none => s.images.any fun i => i.live && i.teams.any fun t => t.1.uid == uid

/-- Another put is landing in the tile of a team: a tile admits one at a time (R376). -/
def State.tileBusy (s : State) (t : Team) (x : Landing) : Bool :=
  s.landings.any fun y => y.admitted && y.id != x.id && match y.team.bind s.team? with
    | some u => u.die == t.die && u.core == t.core
    | none => false

/-- A put lands, is held for a saved team, or is discarded (R263, R297, R376). A put that its tile has admitted before its
clock stopped is the whey buffer's (TileOps.lean). -/
def State.landPut (s : State) (x : Landing) (off n : Nat) : State :=
  match x.team with
  | none => if (s.die x.dstDie.val).inc ≠ x.inc then s.dropLanding x.id else s.putBytes x off n
  | some uid =>
    if s.saved uid then if x.admitted then s else s.updLanding x.id fun y => { y with held := true }
    else
      match s.team? uid with
      | some t =>
        if t.die ≠ x.dstDie then s.discardPut x
        else if s.tileBusy t x || !s.landingDue x off (32 * n) then s
        else
          let y := { x with admitted := true, held := false }
          (s.updLanding x.id fun _ => y).putBytes y off n
      | none => s.discardPut x

end Sys2Proof.Machine
end

