-- ==== Sys2Proof/Machine/Matrix.lean ====
section
/-! DEFINITION. Vats and the matrix instructions after their issue: arrival (R305), the checks of completion (R322 to R325),
the sums (R315), the keep latch (R318), streams and tile delivery (R320, R321, R328), and tokens (R96). The sums stand in Sums.lean, one
granule's work in Move.lean. -/

namespace Sys2Proof.Machine

/-- The operands of a matrix instruction. -/
structure MatArgs where
  kind : MatKind
  g : Guard
  k : Bool
  d : LReg
  a : LReg
  fb : SReg
  sbm : SReg
  cols : Nat
  nv : Nat
  deriving DecidableEq, Repr

/-- N from its code (R326). -/
def colsOf (n : Fin 3) : Nat := 64 * 2 ^ n.val

def mmaArgs (o : MmaArgs) (kind : MatKind) : MatArgs :=
  { kind := kind, g := o.g, k := o.k, d := o.d, a := o.a, fb := o.fb, sbm := o.sbm, cols := colsOf o.n, nv := 0 }

def mmvArgs (o : MmvArgs) : MatArgs :=
  { kind := .mmv, g := o.g, k := o.k, d := o.d, a := o.a, fb := o.fb, sbm := o.sbm, cols := 128, nv := o.nv.val + 1 }

/-- The operands of an instruction that a slice waits at in a vat. -/
def matArgs : Instr → Option MatArgs
  | .mma o => some (mmaArgs o .mma)
  | .mmas o => some (mmaArgs o .mmas)
  | .mmv o => some (mmvArgs o)
  | _ => none

/-! The vat. -/

/-- Group numbers listed in a vat register. -/
def vatList (v : BitVec 16) : List Nat := (List.range 16).filter fun i => bit v i

/-- A slice waits in a vat. -/
def Slice.vatInstr (x : Slice) : Option Instr :=
  match x.hold with
  | .vat i => some i
  | _ => none

/-- The group has arrived: every live slice waits at a matrix instruction (R304). -/
def Group.arrived (g : Group) : Bool := !g.live.isEmpty && g.live.all fun x => x.vatInstr.isSome

/-- The group has ended its part: every slice has exited (R305, R353). -/
def Group.gone (g : Group) : Bool := g.slices.all (·.exited)

/-- Lanes of the vat, in vat-lane order: number, group, slice, lane (R306). -/
def vatLanes (gs : List Group) : List (Nat × Group × Slice × Fin 4) :=
  (gs.zipIdx.flatMap fun gi => gi.1.slices.flatMap fun x =>
    lanes4.map fun j => (32 * gi.2 + 4 * x.num + j.val, gi.1, x, j))

/-- A vat lane is active: its em bit is set and its guard holds (R325). -/
def activeIn (g : Guard) (l : Nat × Group × Slice × Fin 4) : Bool :=
  let x := l.2.2.1
  !x.exited && bit x.em l.2.2.2.val && (x.lane l.2.2.2).guard g

/-- The words of a slice's copy of its instruction: the copy of the lowest plane that its active lanes occupy. -/
def Slice.ownPlanes (x : Slice) : List (Fin 4) :=
  lanes4.filter fun p => lanes4.any fun j => bit x.em j.val && (x.lane j).pl == p

/-- R305 reason 0x6. -/
def Slice.copiesDiffer (x : Slice) : Bool :=
  x.ownPlanes.any fun p => x.ownPlanes.any fun q => x.recWords p != x.recWords q

/-! The format block (R308, R309). -/

structure Fmtb where
  w0 : Word
  locA : Word
  locB : Word
  w3 : Word
  deriving DecidableEq, Repr

def Slice.fmtb (x : Slice) (fb : SReg) : Fmtb :=
  { w0 := x.getS fb, locA := x.getS (fb + 1), locB := x.getS (fb + 2), w3 := x.getS (fb + 3) }

def Fmtb.typeA (f : Fmtb) : ETy := ETy.ofCode (bits f.w0 0 4)
def Fmtb.typeB (f : Fmtb) : ETy := ETy.ofCode (bits f.w0 8 4)
def Fmtb.blenA (f : Fmtb) : Nat := bits f.w0 20 2
def Fmtb.blenB (f : Fmtb) : Nat := bits f.w0 22 2

/-- Generic address that a scale locator names (R309). -/
def locAddr (l : Word) : DWord :=
  BitVec.ofNat 64 ((if bit l 31 then 0xFFFD000000000000 else 0xFFFF000000000000) + bits l 0 31)

/-- Registers of A that one vector or row takes: rpv of R314, or those of R310 and R311. -/
def rpvOf (t : ETy) : Nat := if t.bits = 16 then 2 else 1

/-- Slots of MMV (R314). -/
def slotsOf (groups : Nat) : Nat := if groups < 4 then 2 else 1

/-- Matrix-operand reasons 0x1 to 0x4 and 0x7, and the unimplemented combination (R322, R323, R324 orders 4 and 5). -/
def formatFault (gen groups : Nat) (o : MatArgs) (f : Fmtb) : Option FaultInfo :=
  let fail := fun (r : Nat) => some ({ cls := .matrixOperand, reason := r } : FaultInfo)
  let a := f.typeA
  let b := f.typeB
  let isV := o.kind = .mmv
  let badLen := fun (t : ETy) (l : Nat) => decide (l = 3) || (decide (l ≠ 0) && t != .q4)
  if !isMatType a || !isMatType b || (isV && (isBlockType a || b != .q4)) then fail 1
  else if !isV && a.bits ≠ b.bits then fail 2
  else if badLen a f.blenA || badLen b f.blenB || (isV && f.blenB ≠ 0) then fail 3
  else if bits f.w0 4 4 ≠ 0 || bits f.w0 12 8 ≠ 0 || bits f.w0 24 8 ≠ 0 || f.w3 ≠ 0 ||
      (f.locA ≠ 0 && (isV || !isBlockType a)) || (f.locB ≠ 0 && (isV || !isBlockType b)) then fail 4
  else
    let na := rpvOf a * o.nv
    let nd := slotsOf groups * o.nv
    if isV && (o.a.val + na > 64 || o.d.val + nd > 64 || (o.a.val < o.d.val + nd && o.d.val < o.a.val + na)) then fail 7
    else if gen = 5 && (if isV then decide (a.bits ≠ 16) else a != b) then
      some { cls := .unimplementedCombination, detail := BitVec.ofNat 64 (a.code + 16 * b.code) }
    else none

/-- Why a vat's instruction does not complete: the fault, and the vat lane concerned (R324). -/
structure VatFault where
  info : FaultInfo
  lane : Nat := 0
  deriving DecidableEq, Repr

/-- R324 order 6: the keep latch (R318). -/
def keepFault (keep : Option Keep) (gs : List Group) (o : MatArgs) (f : Fmtb) (active : List Nat) : Option VatFault :=
  let bad := fun (l : Nat) => some ({ info := { cls := .matrixOperand, reason := 8 }, lane := l } : VatFault)
  if gs.any fun g => g.keepSeen != keep.isSome then bad 0
  else
    match keep with
    | none => none
    | some k =>
      if k.kind ≠ o.kind || k.typeA ≠ f.typeA || k.blenA ≠ f.blenA || k.groups ≠ gs.length || k.vectors ≠ o.nv then bad 0
      else if o.kind = .mmv then none
      else
        match active.find? fun l => !k.active.contains l with
        | some l => bad l
        | none => none

/-- Registers of a row of MMAS: 8 of kept elements, and those of the metadata for its type (R311). -/
def sparseRegs (t : ETy) : Nat := 8 + 16 / t.bits

/-- The A registers that a lane holds for an instruction (R310, R311, R314). -/
def MatArgs.aRegs (o : MatArgs) (t : ETy) : List Reg :=
  match o.kind with
  | .mma => vRun o.a 16
  | .mmas => vRun o.a (sparseRegs t)
  | .mmv => vRun o.a (min (rpvOf t * o.nv) (64 - o.a.val))

/-- The accumulator registers of an MMV that vat lane L holds in a vat of n groups: those of the slots in which it has a row
(R314). -/
def MatArgs.dRegs (o : MatArgs) (n L : Nat) : List Reg :=
  vRun o.d (min (((List.range (slotsOf n)).filter fun m => decide (32 * n * m + L < 128)).length * o.nv) (64 - o.d.val))

/-- A range of an operand lies aligned in the shared or scratchpad aperture (R322 reason 0x5). -/
def State.operandOk (s : State) (t : Team) (a : DWord) (align n : Nat) : Bool :=
  match spaceOf a with
  | (.shared, off) => off % align == 0 && decide (off + n ≤ s.bound t .shared)
  | (.scratch, off) => off % align == 0 && decide (off + n ≤ s.bound t .scratch)
  | _ => false

/-- The first poisoned granule of a range in memory, as a fault (R325). -/
def State.chipPoison (s : State) (t : Team) (g : Group) (a : DWord) (n : Nat) : Option FaultInfo :=
  match poisonStop a.toNat (s.chipBytes t g a n) with
  | some (.fault f) => some f
  | _ => none

/-- The stream that is bound to a descriptor address (R320). -/
def Team.stream? (t : Team) (a : DWord) : Option Stream := t.streams.find? (·.addr == a)

/-! Completion. -/

/-- A group with a part of a vat's operation for each of its waiting slices; in the owning group slice skip has the
operation itself. -/
def Group.addParts (g : Group) (owner op : Nat) (skip : Option Nat) (late : Bool) : Group :=
  g.live.foldl (fun h x => if skip = some x.num then h else h.addOpOf g.liveMask x (.vatPart owner op) none late) g

/-- The records of a vat's fault: the group that holds the lane names it, the others name no slice (R324). -/
def vatRec (g : Group) (i lane : Nat) (f : FaultInfo) : Rec :=
  match g.live.head? with
  | none => { fault := f, group := BitVec.ofNat 8 g.num }
  | some x =>
    let r := { mkRec g x (x.ownPlanes.headD 0) f with slice := 0xFF }
    if lane / 32 = i then
      { r with slice := BitVec.ofNat 8 (lane % 32 / 4), lane := BitVec.ofNat 8 (lane % 32), laneMask := BitVec.ofNat 32 (2 ^ (lane % 32)) }
    else r

/-- A fault in every arrived group of a vat (R304, R324). -/
def State.failVat (s : State) (uid : Nat) (gs : List Group) (f : VatFault) : State :=
  gs.zipIdx.foldl (fun (s : State) gi => s.trapSlices uid (vatRec gi.1 gi.2 f.lane f.info) (gi.1.live.map (·.num))) s

/-- What a completion has found: a fault, lanes that hold poisoned A registers, or the operation. -/
inductive VatEnd where
  | fault (f : VatFault)
  | poisoned (lanes : List Nat)
  | go (j : MatJob)
  deriving DecidableEq, Repr

/-- The A operand read from registers: by vat lane, or by vector (R310, R311, R314); none marks an illegal row. -/
def readA (o : MatArgs) (t : ETy) (b : Group → Nat) (ls : List (Nat × Group × Slice × Fin 4)) : List (Nat × Option (List Byte)) :=
  match o.kind with
  | .mma => ls.map fun l => (l.1, some (l.2.2.1.laneBytes (b l.2.1) o.a 16 l.2.2.2))
  | .mmas => ls.map fun l => (l.1, widenRow t (l.2.2.1.laneBytes (b l.2.1) o.a (sparseRegs t) l.2.2.2))
  | .mmv => []

/-- The vectors of MMV from the owning group's lanes (R314). -/
def readVectors (o : MatArgs) (t : ETy) (g : Group) : List (Nat × List Byte) :=
  (List.range o.nv).map fun v => (v, (List.range (rpvOf t)).flatMap fun r =>
    g.slices.flatMap fun x => lanes4.flatMap fun j =>
      x.laneBytes g.budget (Fin.ofNat 64 (o.a.val + rpvOf t * v + r)) 1 j)

/-- Lanes whose named registers, given by vat lane, hold poison. -/
def poisonedLanes (rs : Nat → List Reg) (ls : List (Nat × Group × Slice × Fin 4)) : List Nat :=
  (ls.filter fun l => l.2.2.1.lanePoison l.2.1.budget (rs l.1) (l.2.2.1.lane l.2.2.2)).map (·.1)

/-- The format block and the pair s[sbm] hold poison (R306, R361). -/
def Slice.formatPoison (x : Slice) (o : MatArgs) : Bool := x.scalarPoison (sRun o.fb 4 ++ sPair o.sbm)

/-- R324 orders 4 to 9 for a vat whose groups have arrived at one instruction. -/
def State.judgeVat (s : State) (t : Team) (gs : List Group) (o : MatArgs) : VatEnd :=
  match gs.head? with
  | none => .poisoned []
  | some owner =>
    match owner.slices.head? with
    | none => .poisoned []
    | some x0 =>
      let f := x0.fmtb o.fb
      let ss := x0.getPair o.sbm
      let fail := fun (i : FaultInfo) (l : Nat) => VatEnd.fault { info := i, lane := l }
      let all := vatLanes gs
      let act := all.filter (activeIn o.g)
      let actNums := act.map (·.1)
      match formatFault (Config.generation t.die.val) gs.length o f with
      | some i => fail i 0
      | none =>
        match keepFault owner.keep gs o f actNums with
        | some v => .fault v
        | none =>
          let declared := match s.launch? t.launch with
            | some l => l.header.tokens
            | none => 0
          if t.tokens.length ≥ declared then fail { cls := .powerBudget, detail := BitVec.ofNat 64 declared } 0
          else
            let isV := o.kind = .mmv
            let m := 32 * gs.length
            let addrA := if isV || !isBlockType f.typeA then 0 else locAddr f.locA
            let addrB := if isV || !isBlockType f.typeB then 0 else locAddr f.locB
            let nA := if addrA = 0 then 0 else scaleTiles f.typeA f.blenA m
            let nB := if addrB = 0 then 0 else scaleTiles f.typeB f.blenB o.cols
            let scaleBad := (if nA = 0 then none else s.scaleFault t addrA nA).or (if nB = 0 then none else s.scaleFault t addrB nB)
            match scaleBad with
            | some i => fail i 0
            | none =>
              let accs := if isV then [] else act.map fun l => (l.1, l.2.2.1.lanePair l.2.1.budget o.d (l.2.2.1.lane l.2.2.2))
              if !isV && !s.operandOk t ss 64 (64 * o.cols) then fail { cls := .matrixOperand, reason := 5 } 0
              else
                match accs.find? fun a => !s.operandOk t a.2 32 (4 * o.cols) with
                | some a => fail { cls := .matrixOperand, reason := 5 } a.1
                | none =>
                  let rows := if owner.keep.isSome then [] else readA o f.typeA (·.budget) act
                  match rows.find? fun r => r.2.isNone with
                  | some r => fail { cls := .matrixOperand, reason := 6 } r.1
                  | none =>
                    let aLanes := if isV then vatLanes [owner] else act
                    let dLanes := poisonedLanes (if isV then o.dRegs gs.length else fun _ => vPair o.d) act
                    let pl := (if owner.keep.isSome then [] else poisonedLanes (fun _ => o.aRegs f.typeA) aLanes) ++ dLanes
                    let low := actNums.headD 0
                    let memP := (if isV then none else s.chipPoison t owner ss (64 * o.cols)).or
                      ((s.chipPoison t owner addrA (128 * nA)).or ((s.chipPoison t owner addrB (128 * nB)).or
                      (accs.findSome? fun a => s.chipPoison t owner a.2 (4 * o.cols))))
                    if x0.formatPoison o then fail { cls := .poison, reason := 1 } 0
                    else if !pl.isEmpty then .poisoned pl
                    else
                      match memP with
                      | some i => fail i low
                      | none =>
                        let st := t.stream? ss
                        let stFault : Option Nat := if !isV then none else
                          match st with
                          | none => some 3
                          | some x => if x.claimed ≥ x.count then some 4 else none
                        match stFault with
                        | some r => fail { cls := .stream, reason := r, detail := ss } 0
                        | none =>
                          let kept := match owner.keep with
                            | some k => k.rows
                            | none => if isV then readVectors o f.typeA owner else rows.map fun r => (r.1, r.2.getD [])
                          .go { kind := o.kind, members := gs.map (·.num), typeA := f.typeA, typeB := f.typeB,
                                blenA := f.blenA, blenB := f.blenB, scaleA := addrA, scaleB := addrB,
                                addrB := if isV then 0 else ss, cols := o.cols, active := actNums, rows := kept, acc := accs,
                                dst := o.d, bases := gs.flatMap fun g => g.slices.map fun x => (g.num, x.num, x.wb),
                                stream := ss, tile := match st with | some x => x.claimed | none => 0,
                                producer := match st with | some x => (x.group, x.op) | none => (0, 0),
                                todo := (List.range accs.length).flatMap fun i => (List.range (o.cols / 8)).map fun q => (i, q) }

/-- The vat passes its instruction: its slices go on, and the owning group takes the token, the latch and the operation
(R96, R304, R318, R326 to R329). -/
def State.startVat (s : State) (uid : Nat) (gs : List Group) (o : MatArgs) (j : MatJob) : State :=
  match gs.head? with
  | none => s
  | some owner =>
    match owner.slices.head? with
    | none => s
    | some x0 =>
      let isV := o.kind = .mmv
      let late := owner.keep.isNone
      let keep := if o.k then some (owner.keep.getD
        { kind := o.kind, typeA := j.typeA, blenA := j.blenA, groups := gs.length, vectors := o.nv, active := j.active,
          rows := j.rows }) else none
      let id := owner.nextOp
      let lead := owner.live.headD x0
      let nums := gs.map (·.num)
      s.updTeam uid fun t =>
        let t1 := t.mapGroups fun g =>
          if g.num = owner.num then
            let g1 := (g.addOpOf g.liveMask lead (.matrix j) (if isV then some .stream else none) late).addParts owner.num id (some lead.num) late
            { g1 with keep := keep }
          else if nums.contains g.num then g.addParts owner.num id none late
          else g
        let t2 := t1.mapGroups fun g =>
          if nums.contains g.num then g.mapSlices fun x => if x.exited then x else x.done else g
        { t2 with
          tokens := t2.tokens ++ [{ group := owner.num, rflag := x0.rflag, sflag := x0.sflag }],
          streams := t2.streams.map fun x => if isV && x.group = j.producer.1 && x.op = j.producer.2 then { x with claimed := x.claimed + 1 } else x }

/-- Lanes of a vat that hold poisoned operands defer their traps, and the vat goes on without an effect (R325). -/
def State.poisonVat (s : State) (uid : Nat) (gs : List Group) (ls : List Nat) : State :=
  gs.zipIdx.foldl (fun (s : State) gi => s.updGroup uid gi.1.num fun g => g.mapSlices fun x =>
    if x.exited then x
    else
      let mine := lanes4.filter fun j => ls.contains (32 * gi.2 + 4 * x.num + j.val)
      let mask := mine.foldl (fun (m : BitVec 4) j => m ||| BitVec.ofNat 4 (2 ^ j.val)) 0
      let first := (lanes4.flatMap fun p => mine.filter fun j => (x.lane j).pl == p).head?
      match first with
      | none => x.done
      | some j =>
        let r := laneRec g x (x.lane j).pl j { cls := .poison, reason := 1 }
        (x.deferLanes mask false { r with laneMask := mine.foldl (fun w k => w ||| laneBit x.num k) 0 }).done) s

/-- The rendezvous of a vat completes (R304). -/
def State.completeVat (s : State) (t : Team) (gs : List Group) : State :=
  let is := gs.flatMap fun g => g.live.map fun x => (x.vatInstr, x.recWords (x.ownPlanes.headD 0))
  let parted := gs.any fun g => g.live.any fun x => g.live.any fun y => x.offset != y.offset
  let vats := gs.map (·.vat)
  match is.head?, vats.head? with
  | some i, some v =>
    if is.any (· != i) || parted || vats.any (· != v) then s.failVat t.uid gs { info := { cls := .vat, reason := 4 } }
    else
      match i.1.bind matArgs with
      | none => s
      | some o =>
        match s.judgeVat t gs o with
        | .fault f => s.failVat t.uid gs f
        | .poisoned ls => s.poisonVat t.uid gs ls
        | .go j => s.startVat t.uid gs o j
  | _, _ => s

/-! Operations of the matrix units. -/

/-- A group after its vat's operation: its counters fall and its waits end, for each member. -/
def State.afterVat (s : State) (uid : Nat) (ms : List Nat) : State := ms.foldl (fun (s : State) n => s.afterReturn uid n) s

/-- LATE_SOURCE_READ (R132). -/
def State.lateSources (s : State) (uid n id : Nat) : State :=
  match s.opAt uid n id with
  | none => s
  | some (t, _, o) =>
    match o.job with
    | .matrix j => if t.frozen then s else (s.updTeam uid (·.markParts n id false)).afterVat uid j.members
    | _ => s

/-- D registers of an MMV after its tile's delivery, as writes by group (R314, R328). -/
def deliverWrites (t : Team) (j : MatJob) (x : PressedTile) : List (Nat × RegWrite) :=
  let span := 32 * j.members.length
  let per := 128 / x.len
  let nv := j.rows.length
  let vecs := j.rows.map fun v => (v.1, rowVals j.typeA 128 128 (fun _ => 0) v.2)
  let rows := (List.range 128).map fun r =>
    ((x.codes.drop (r * per)).take per, (x.scales.drop (r * per)).take per)
  rows.zipIdx.flatMap fun rn =>
    let n := rn.2
    let l := n % span
    if !j.active.contains l then []
    else
      let gn := j.members.getD (l / 32) 0
      let sn := l % 32 / 4
      let xs := (rn.1.1.zip rn.1.2).flatMap fun c => c.1.map fun k => elemVal .q4 c.2 k
      match t.group? gn with
      | none => []
      | some g =>
        match g.slice? sn with
        | none => []
        | some sl =>
          let wb := ((j.bases.find? fun b => b.1 == gn && b.2.1 == sn).map (·.2.2)).getD sl.wb
          vecs.map fun v =>
            let idx := (wb + j.dst.val + n / span * nv + v.1) % g.budget
            let old := (sl.lane (Fin.ofNat 4 (l % 4))).get idx
            (gn, .lane sn (l % 4) idx (BitVec.ofNat 32 (dotRow old.toNat xs v.2 x.len fun q => q4Scale (rn.1.2.getD q 0))) false)

/-- An MMV returns (R328), with reason 0x5 when its tile cannot be delivered (R321). -/
def State.returnMmv (s : State) (t : Team) (g : Group) (o : Op) (j : MatJob) (f : Option FaultInfo) : State :=
  (s.finishOp t.uid g.num o.id f).afterVat t.uid j.members

/-- The first tile read of a stream has been delivered: after the last, the STREAM returns and the stream is unbound
(R320). -/
def State.countTile (s : State) (t : Team) (x : Stream) : State :=
  let mine := fun (y : Stream) => y.group == x.group && y.op == x.op
  if x.delivered + 1 = x.count then
    let s1 := s.updTeam t.uid fun t => { t with streams := t.streams.filter fun y => !mine y }
    (s1.finishOp t.uid x.group x.op none).afterReturn t.uid x.group
  else s.updTeam t.uid fun t =>
    { t with streams := t.streams.map fun y => if mine y then { y with delivered := y.delivered + 1, ahead := y.ahead.drop 1 } else y }

/-- TILE_DELIVERY for an operation: an MMV takes its tile when it is the stream's next and has been read, else the tile is
read (R320, R328); it returns with reason 0x5 when its tile can no longer be delivered (R321). A STREAM reads its next tile
ahead. -/
def State.deliver (s : State) (uid n id : Nat) : State :=
  match s.opAt uid n id with
  | none => s
  | some (t, g, o) =>
    if t.frozen || o.returned then s
    else
      match o.job with
      | .stream _ => s.engineOp uid n id 0
      | .matrix j =>
        if j.kind ≠ .mmv then s
        else
          let lost := some { cls := .stream, reason := 5, detail := j.stream }
          match t.streams.find? fun x => x.group == j.producer.1 && x.op == j.producer.2 with
          | none => s.returnMmv t g o j lost
          | some x =>
            if x.fault.isSome && x.read ≤ j.tile then s.returnMmv t g o j lost
            else if x.delivered ≠ j.tile then s
            else
              match x.ahead.head? with
              | some tile =>
                let s1 := (deliverWrites t j tile).foldl (fun (s : State) w => s.updGroup uid w.1 (w.2.apply ·)) s
                (s1.returnMmv t g o j none).countTile t x
              | none =>
                if [3, 4].any fun c => s.blocked t g o.prior { slice := o.slice, cls := c, write := false, spans := [] } then s
                else s.engineOp uid x.group x.op 0
      | _ => s

end Sys2Proof.Machine
end

