-- ==== Sys2Proof/Machine/Rendezvous.lean ====
section
/-! DEFINITION. What completes when the last party has come: REGANG (R185), BAR (R286 to R288), vats (R304, R305). It is
looked at after every step that may bring a party or remove one. -/

namespace Sys2Proof.Machine

/-- Every class of R254. -/
def allClasses : BitVec 6 := 0x3F

/-! Regang. -/

def Slice.inRegang (x : Slice) : Bool :=
  match x.hold with
  | .regang => true
  | _ => false

/-- The offset at which a group's rendezvous is complete (R185). -/
def Group.regangDone (g : Group) : Option Word :=
  match g.live with
  | [] => none
  | x :: r => if x.inRegang && r.all (fun y => y.inRegang && y.offset == x.offset) then some x.offset else none

/-- What slices must share to leave a REGANG as one gang: the row (R87), the offset, and whether their clause is older than an
in-place patch (R140; log 28). -/
def regangKey (g : Group) (x : Slice) : Fin 4 × Nat × Word × Option (Word × Nat) :=
  (g.place.sub, g.place.base, x.offset, x.cbuf.map fun b => (b.base, b.patched))

/-- Past the REGANG: its word and its completion are folded (R240). -/
def Slice.leaveRegang (x : Slice) : Slice :=
  let y := x.foldWords
  { y with sg := foldSig y.sg 0xE2 }.advance

/-- The copies of planes of two buffers of one clause. -/
def ClauseBuf.merge (a b : ClauseBuf) : ClauseBuf :=
  { a with planes := Vector.ofFn fun p => if (a.planes[p]).isEmpty then b.planes[p] else a.planes[p],
           old := Vector.ofFn fun p => if (a.old[p]).isEmpty then b.old[p] else a.old[p] }

/-- The slices of complete groups that share a key leave as one gang with a number of its own, and with every copy of their
clause that one of them has read. -/
def Team.formGang (t : Team) (done : List Nat) (key : Fin 4 × Nat × Word × Option (Word × Nat)) : Team :=
  let ready := fun (g : Group) (x : Slice) => done.contains g.num && !x.exited && x.inRegang && regangKey g x == key
  let bufs := t.groups.flatMap fun g => (g.slices.filter (ready g)).filterMap (·.cbuf)
  let buf := match bufs with
    | [] => none
    | b :: r => some (r.foldl ClauseBuf.merge b)
  { t.mapGroups fun g => g.mapSlices fun x =>
      if ready g x then { { x with cbuf := buf }.leaveRegang with gang := t.nextGang } else x with
    nextGang := t.nextGang + 1 }

/-- Every complete rendezvous of a team ends; each acts as FENCE.AR.GRP with every class (R188). -/
def State.regangs (s : State) (uid : Nat) : Option State :=
  match s.team? uid with
  | none => none
  | some t =>
    let done := (t.groups.filter fun g => g.regangDone.isSome).map (·.num)
    if done.isEmpty then none
    else
      let keys := (t.groups.filter fun g => done.contains g.num).flatMap fun g => g.live.map (regangKey g)
      let fenced := t.mapGroups fun g => match g.live.head? with
        | some x => if done.contains g.num then g.addFence g.liveMask x .ar allClasses false else g
        | none => g
      some (s.updTeam uid fun _ => keys.eraseDups.foldl (fun t k => t.formGang done k) fenced)

/-! Barriers. -/

def Slice.atBarrier (x : Slice) : Option BarArgs :=
  match x.hold with
  | .barrier o => some o
  | _ => none

/-- The arguments with which a group arrives: every live slice waits on one barrier (R286). -/
def Group.barArgs (g : Group) : Option BarArgs :=
  match g.live with
  | [] => none
  | x :: r =>
    match x.atBarrier with
    | none => none
    | some o => if r.all (fun y => match y.atBarrier with
        | some p => p.barrier == o.barrier
        | none => false) then some o else none

/-- A group leaves a barrier with value v in s[sd] (R286, R287). -/
def Group.leaveBarrier (g : Group) (v : Word) : Group :=
  g.mapSlices fun x =>
    match x.atBarrier with
    | some o => if x.exited then x else (x.setS o.d v).done
    | none => x

/-- Barrier b of the team ends: arrived groups leave and it clears. -/
def Team.endBarrier (t : Team) (b : Fin 16) (v : Word) : Team :=
  let arrived := t.barriers[b].arrived
  { t.mapGroups fun g => if arrived.contains g.num then g.leaveBarrier v else g with barriers := t.barriers.set b {} }

/-- The next arrival of the team, when there is one (R286, R287). -/
def State.arrival (s : State) (uid : Nat) : Option State :=
  match s.team? uid with
  | none => none
  | some t =>
    match t.groups.find? fun g => match g.barArgs with
      | some o => !(t.barriers[o.barrier].arrived.contains g.num)
      | none => false with
    | none => none
    | some g =>
      match g.barArgs, g.live.head? with
      | some o, some x =>
        let b := t.barriers[o.barrier]
        let count := if b.count = 0 then o.count.val + 1 else b.count
        if o.count.val + 1 ≠ count then
          some (s.trapSlices uid (x.trapRec (mkRec g x 0 { cls := .barrier, detail := BitVec.ofNat 64 o.barrier.val }))
            (g.live.map (·.num)))
        else
          let b1 : Barrier := { count := count, arrived := b.arrived ++ [g.num], timeout := if b.count = 0 then o.timeout else b.timeout }
          some (s.updTeam uid fun t => { t with barriers := t.barriers.set o.barrier b1 })
      | _, _ => none

/-- The phase of a barrier is complete. -/
def Barrier.complete (b : Barrier) : Bool := b.count != 0 && decide (b.arrived.length ≥ b.count)

/-- Some access that a group has made is still to be performed. -/
def Team.busy (t : Team) (g : Group) : Bool := g.ops.any (t.pending g)

/-- A phase that is complete ends, once every access that its groups made before it has been performed (R286, R288). -/
def State.phaseEnd (s : State) (uid : Nat) : Option State :=
  match s.team? uid with
  | none => none
  | some t =>
    match (List.finRange 16).find? fun b => t.barriers[b].complete && t.groups.all fun g =>
        !(t.barriers[b].arrived.contains g.num && t.busy g) with
    | none => none
    | some b => some (s.updTeam uid (·.endBarrier b 0))

/-! Vats. -/

/-- A vat fault at a group's arrival (R305 reasons 0x2, 0x3, 0x5, 0x6; R324 order 2). -/
def Team.arrivalFault (t : Team) (g : Group) : Option Nat :=
  if g.vat = 0 then some 2
  else if g.width ≠ 32 then some 3
  else if g.live.any (·.copiesDiffer) then some 6
  else if (vatList g.vat).any (fun n => match t.group? n with
      | some h => h.gone
      | none => true) then some 5
  else none

/-- The owning group's stream counter can take the operation (R257). -/
def vatRoom (gs : List Group) : Bool :=
  match gs.head? with
  | none => true
  | some g =>
    match (g.live.head?).bind (·.vatInstr) with
    | some (.mmv _) => decide (g.counter .stream < 63)
    | _ => true

/-- The next fault at arrival or completion of a vat of the team. -/
def State.vatStep (s : State) (uid : Nat) : Option State :=
  match s.team? uid with
  | none => none
  | some t =>
    let here := t.groups.filter (·.arrived)
    match here.find? fun g => (t.arrivalFault g).isSome with
    | some g =>
      match g.live.head? with
      | none => none
      | some x => some (s.trapSlices uid (x.trapRec (mkRec g x (x.ownPlanes.headD 0) { cls := .vat, reason := (t.arrivalFault g).getD 2 }))
        (g.live.map (·.num)))
    | none =>
      let listed := fun (g : Group) => t.groups.filter fun h => bit g.vat h.num
      match here.find? fun g => (listed g).all (·.arrived) && vatRoom (listed g) with
      | some g => some (s.completeVat t (listed g))
      | none => none

/-! Waits of slices that no path counter ends. -/

/-- A slice that waits for older accesses of its group may go on (R248, R249, R267): none is left, or none that comes before
an access of the class that it reads in. -/
def Team.orderFree (t : Team) (g : Group) (x : Slice) (cls : Option Nat) : Bool :=
  (g.priorTo (g.gangMask x.gang)).all fun k => match g.op? k with
    | none => true
    | some o =>
      match cls with
      | none => !t.pending g o
      | some c =>
        !(t.pending g o && o.job.classes.contains c) &&
        !(match o.job with
          | .fence _ cs _ => bit cs c && o.prior.any fun j => match g.op? j with
            | some a => t.pending g a
            | none => false
          | _ => false)

/-- No result of the slice is on its way (R363). -/
def Group.quiet (g : Group) (x : Slice) : Bool :=
  g.ops.all fun o => o.slice != x.num || o.returned || match o.job with
    | .result _ | .access _ _ _ | .matrix _ | .vatPart _ _ => false
    | _ => true

/-- Slices whose wait for older work of their group is over. -/
def Team.orderDone (t : Team) (g : Group) (x : Slice) : Bool :=
  !x.exited && match x.hold with
    | .order c => t.orderFree g x c
    | .replay => g.quiet x
    | _ => false

def State.orderWakes (s : State) (uid : Nat) : Option State :=
  match s.team? uid with
  | none => none
  | some t =>
    if t.groups.any fun g => g.slices.any (t.orderDone g) then
      some (s.updTeam uid fun t => t.mapGroups fun g => g.wakeIf (t.orderDone g))
    else none

/-! Together. -/

/-- Operations of a group leave, or a group's path waits end. -/
def State.returns (s : State) (uid : Nat) : Option State :=
  match s.team? uid with
  | none => none
  | some t =>
    match t.groups.find? fun g => decide ((retireOps g.ops [] []).1.length < g.ops.length) with
    | some g => some (s.afterReturn uid g.num)
    | none => none

/-- Slices that have stepped and wait no longer are held again (R369). -/
def State.endSteps (s : State) (uid : Nat) : Option State :=
  match s.team? uid with
  | none => none
  | some t =>
    let stepped := fun (x : Slice) => x.dbg == .stepped && x.hold == .none && !x.sdone && !x.exited
    match t.groups.find? fun g => g.slices.any stepped with
    | none => none
    | some g =>
      match g.slices.filter stepped with
      | [] => none
      | x :: r => some (s.stopGroup t g.num ((x :: r).map (·.num)) (mkRec g x 0 { cls := .debugStop, reason := 2 }))

/-- One rendezvous or wait of a team that can end. -/
def State.meet (s : State) (uid : Nat) : Option State :=
  ((((((s.returns uid).or (s.regangs uid)).or (s.arrival uid)).or (s.phaseEnd uid)).or (s.vatStep uid)).or
    (s.orderWakes uid)).or (s.endSteps uid)

def State.meets (s : State) (uid : Nat) : Nat → State
  | 0 => s
  | n + 1 =>
    match s.meet uid with
    | some t => t.meets uid n
    | none => s

/-- Every rendezvous and wait of a team that can end has ended, and flags that nothing holds are clear (R132). -/
def State.rendezvous (s : State) (uid : Nat) : State := (s.meets uid 1024).updTeam uid (·.mapGroups Group.settleFlags)

/-- Traps taken by several slices of a team, and what they bring about. -/
def State.raiseAll (s : State) (uid : Nat) (rs : List (Slice × Rec)) : State := (s.trapAll uid rs).rendezvous uid

end Sys2Proof.Machine
end

