-- ==== Sys2Proof/Machine/Issue.lean ====
section
/-! DEFINITION. How an instruction of the issuing gang runs: the dependence check (R133), poison (R361), deferred and precise
faults (R353 to R356), replay (R362, R363), the lanes of a pass (R126, R127), and the slices of a scalar instruction (R177). -/

namespace Sys2Proof.Machine

/-! Dependences. -/

/-- The slice is parked on a page (R359). -/
def Slice.isParked (x : Slice) : Bool :=
  match x.hold with
  | .parked _ => true
  | _ => false

/-- The debugger holds the slice at its instruction (R368). -/
def Slice.isHeld (x : Slice) : Bool :=
  match x.dbg with
  | .held _ => true
  | _ => false

/-- Dependence faults of the gang for registers read and written. -/
def State.depFaults (s : State) (rd wr : List Reg) : List (Slice × Rec) :=
  s.members.filterMap fun m =>
    if m.2.sdone || m.2.isParked || m.2.isHeld then none
    else (m.2.dependence m.1.budget rd wr).map fun f => (m.2, mkRec m.1 m.2 s.cur.plane f)

/-- The first record of each group. -/
def firstOfGroups : List (Slice × Rec) → List (BitVec 8) → List (Slice × Rec)
  | [], _ => []
  | m :: r, seen => if seen.contains m.2.group then firstOfGroups r seen else m :: firstOfGroups r (m.2.group :: seen)

/-- Traps of several slices of the gang: one record for each group (R354). -/
def State.raise (s : State) (rs : List (Slice × Rec)) : State := s.raiseAll s.cur.team (firstOfGroups rs [])

/-! Replay (R362, R363). -/

/-- The issuing gang's partition has its debug bit set (R247, R368). -/
def State.debugged (s : State) : Bool :=
  match s.team? s.cur.team with
  | some t => s.debugOn t.partition.val
  | none => false

/-- The conditions of R362 on the gang, some of whose slices would trap as given: one of these has deferred a fault, so that this
is a trap point (R356), or each of them has just consumed poison. -/
def State.replayOk (s : State) (rs : List (Slice × Rec)) : Bool :=
  match s.members, (s.team? s.cur.team).bind fun t => s.launch? t.launch with
  | m :: ms, some l =>
    bit l.policy 0 && bit (BitVec.ofNat 8 l.header.flags) 1 &&
    (rs.any (·.1.deferred != 0) || rs.all fun r => r.2.fault.cls == .poison) &&
    (m :: ms).all fun x =>
      x.2.ie.valid && x.2.ie.entry == m.2.ie.entry && decide (x.2.replay.val < 2) &&
      (x.2.deferred == 0 || (!x.2.dOther && (match x.2.dRec with
        | some r => r.fault.cls == .poison
        | none => true)))
  | _, _ => false

/-- A slice back at its region's entry. -/
def Slice.restart (x : Slice) : Slice :=
  let y := { x.fresh with offset := x.ie.entry, em := x.ie.mask, deferred := 0, dRec := none, dOther := false,
                          replay := x.replay + 1, marks := x.marks.filter fun m => !m.pending, yieldHint := 0 }
  y.endClause

/-- The record of a slice's poison in a replay: of what it has just consumed, else of its deferred set (R363). -/
def replayRec (g : Group) (x : Slice) (now : Option Rec) : Option Rec :=
  match now with
  | some r => some (x.trapRec r)
  | none => if x.deferred = 0 then none else some (x.trapRec (mkRec g x 0 { cls := .poison }))

/-- The records of a replay (R363). -/
def State.replayRecs (s : State) (rs : List (Slice × Rec)) : List Rec :=
  s.members.filterMap fun m => replayRec m.1 m.2
    ((rs.find? fun r => r.2.group == BitVec.ofNat 8 m.1.num && r.1.num == m.2.num).map (·.2))

/-- The gang replays, once no result of its slices is on its way; till then it waits (R363). -/
def State.replay (s : State) (rs : List (Slice × Rec)) : State :=
  match s.team? s.cur.team with
  | none => s
  | some t =>
    if s.members.any fun m => !m.1.quiet m.2 then s.mapGang fun _ x => { x with hold := .replay }
    else
      let s1 := (s.replayRecs rs).foldl (fun (s : State) r => (s.record t { r with flags := setBit r.flags 2 true }).1) s
      (s1.mapGang fun _ x => x.restart).updPart t.partition.val fun p => { p with cReplay := p.cReplay + 1 }

/-- Precise traps of some slices, or a replay in their place (R356, R362). -/
def State.preciseTraps (s : State) (rs : List (Slice × Rec)) : State :=
  if s.replayOk rs then s.replay rs else s.raise rs

/-- A fault of the whole instruction: every group of the gang traps, or the gang replays (R165, R353, R362). -/
def State.raiseGang (s : State) (p : Fin 4) (f : FaultInfo) : State :=
  s.preciseTraps (s.members.map fun m => (m.2, mkRec m.1 m.2 p f))

/-- The dependence check, before anything else of the instruction (R165). It is made once, before the first pass. -/
def State.checked (s : State) (rd wr : List Reg) (k : State → State) : State :=
  if s.cur.first then
    match s.depFaults rd wr with
    | [] => k s
    | fs => s.preciseTraps fs
  else k s

/-- The gang runs on a Jenben 5 die (R163). -/
def State.onJenben5 (s : State) : Bool :=
  match s.team? s.cur.team with
  | some t => Config.generation t.die.val == 5
  | none => false

/-- An opcode marked J6 is not implemented on a Jenben 5 die (R163, R352). -/
def State.onlyJ6 (s : State) (k : State → State) : State :=
  if s.onJenben5 then s.raiseGang s.cur.plane { cls := .unimplementedGeneration } else k s

/-- Slices with a nonzero deferred set trap, or the gang replays, before the instruction issues (R356, R362). A gang with a
slice that is then held does not issue it (R368). -/
def State.atTrapPoint (s : State) (k : State → State) : State :=
  match s.members.filter fun m => m.2.deferred != 0 with
  | [] => k s
  | ms =>
    let rs := ms.map fun m => (m.2, m.2.trapRec (mkRec m.1 m.2 0 { cls := .poison }))
    if s.replayOk rs then s.replay rs
    else if s.debugged then s.raise rs
    else k (s.raise rs)

/-! Gangs that part (R178, R184). -/

/-- Slices of the issuing gang with a key other than its first slice's leave it, one gang for each key. -/
def State.partBy {α : Type} [BEq α] (s : State) (key : Group → Slice → α) : State :=
  match s.members with
  | [] => s
  | m :: ms =>
    let k0 := key m.1 m.2
    let ks := ms.foldl (fun l x => let k := key x.1 x.2; if k == k0 || l.contains k then l else l ++ [k]) []
    s.updTeam s.cur.team fun t =>
      ks.foldl (fun (t : Team) k =>
        { t.mapGroups fun g => g.mapSlices fun x =>
            if x.inGang s.cur.gang && key g x == k then { x with gang := t.nextGang } else x with
          nextGang := t.nextGang + 1 }) t

/-- Groups of the issuing gang, in ascending order. -/
def State.gangGroups (s : State) : List Nat :=
  s.members.foldl (fun l m => if l.contains m.1.num then l else l ++ [m.1.num]) []

/-- The instruction issues for each group of the gang in turn, each with a gang of its own (R184). -/
def State.perGroup (s : State) (k : State → State) : State :=
  match s.gangGroups with
  | [] => s
  | [_] => k s
  | ns =>
    ns.foldl (fun (s1 : State) n =>
      match s1.team? s.cur.team with
      | none => s1
      | some t =>
        let alone := (t.members s.cur.gang).all fun m => m.1.num == n
        let gang := if alone then s.cur.gang else t.nextGang
        let s2 := s1.updTeam t.uid (·.splitOff s.cur.gang n)
        { k { s2 with cur := { s.cur with gang := gang } } with cur := s.cur }) s

/-! Lanes. -/

/-- What a lane of a pass does: registers by physical number, predicates, exceptions. -/
structure LaneRes where
  regs : List (Nat × Word) := []
  preds : List (PReg × Bool) := []
  exc : Exc := 0
  deriving DecidableEq, Repr

/-- The result bits of type t in window register k. -/
def resOf (x : Slice) (b : Nat) (t : ETy) (k : LReg) (r : Nat × Exc) : LaneRes :=
  let v := regOf t r.1
  { regs := if t.is64 then [(x.phys b k, v.1), (x.phys b (up k), v.2)] else [(x.phys b k, v.1)], exc := r.2 }

def LaneRes.apply (r : LaneRes) (l : Lane) : Lane :=
  let l1 := r.regs.foldl (fun (l : Lane) w => l.put w.1 w.2 false) l
  r.preds.foldl (fun (l : Lane) p => l.setPred p.1 p.2) l1

/-- What the lanes of an instruction compute from: the group and slice as they stood before its first pass (R127). -/
abbrev LaneFn := Group → Slice → Fin 4 → Lane → Except FaultInfo LaneRes

/-- The group as it stood before the first pass. -/
def Cur.source (c : Cur) (g : Group) : Group :=
  if c.first then g else (c.before.find? (·.num == g.num)).getD g

/-- The lane takes part in the pass (R126, R192). -/
def Cur.inPass (c : Cur) (x : Slice) (j : Fin 4) : Bool := bit x.em j.val && (x.lane j).pl == c.plane

/-- What lane j does in the pass: nothing, a fault, or a result. -/
def laneOutcome (c : Cur) (gd : Guard) (rd : List Reg) (f : LaneFn) (g : Group) (x : Slice) (j : Fin 4) :
    Option (Except FaultInfo LaneRes) :=
  let l := x.lane j
  if c.inPass x j && l.guard gd then
    some (if x.lanePoison g.budget rd l then .error { cls := .poison, reason := 1 } else f g x j l)
  else none

abbrev Outcomes := Fin 4 → Option (Except FaultInfo LaneRes)

def Outcomes.fault (o : Outcomes) (j : Fin 4) : Option FaultInfo :=
  match o j with
  | some (.error f) => some f
  | _ => none

def Outcomes.res (o : Outcomes) (j : Fin 4) : Option LaneRes :=
  match o j with
  | some (.ok r) => some r
  | _ => none

/-- A mask of lanes. -/
def laneMask4 (js : List (Fin 4)) : BitVec 4 := js.foldl (fun m j => m ||| BitVec.ofNat 4 (2 ^ j.val)) 0

/-- The slice with faulting lanes deferred (R127, R355). -/
def Slice.deferFaults (x : Slice) (g : Group) (p : Fin 4) (fault : Fin 4 → Option FaultInfo) : Slice :=
  let js := lanes4.filter fun j => (fault j).isSome
  match js with
  | [] => x
  | j :: _ =>
    let r := laneRec g x p j ((fault j).getD { cls := .poison })
    x.deferLanes (laneMask4 js) (js.any fun k => match fault k with
      | some f => f.cls != .poison
      | none => false) { r with laneMask := js.foldl (fun w k => w ||| laneBit x.num k) 0 }

/-- The end of a pass in a slice: after the last one the instruction is done. -/
def Slice.endPass (x : Slice) (c : Cur) : Slice := if c.last then x.done else x

/-- A fixed-latency pass in a slice. -/
def Slice.fixedPass (x : Slice) (g : Group) (c : Cur) (o : Outcomes) : Slice :=
  ((x.mapLanes fun j l => match o.res j with
    | some r => r.apply l
    | none => l).deferFaults g c.plane o.fault).endPass c

/-- A variable-latency pass in a slice: its destinations are marked when some lane takes part. -/
def Slice.varPass (x : Slice) (g : Group) (c : Cur) (wr : List Reg) (fault : Fin 4 → Option FaultInfo) : Slice :=
  let x1 := if lanes4.any (c.inPass x) then x.mark g.budget true x.rflag wr else x
  (x1.deferFaults g c.plane fault).endPass c

/-- Exceptions of a slice's lanes. -/
def Outcomes.exc (o : Outcomes) : Exc :=
  lanes4.foldl (fun e j => match o.res j with
    | some r => e ||| r.exc
    | none => e) 0

/-- Outcomes of slice n of a group for an instruction. -/
def Group.outcomes (g : Group) (c : Cur) (gd : Guard) (rd : List Reg) (f : LaneFn) (x : Slice) : Outcomes :=
  let g0 := c.source g
  laneOutcome c gd rd f g0 ((g0.slice? x.num).getD x)

/-- The slices of a group that belong to the issuing gang. -/
def Group.inCur (g : Group) (c : Cur) : List Slice := g.slices.filter (·.inGang c.gang)

/-- The exceptions of a pass in a group are ORed into its mode register (R52). -/
def Group.passExc (g : Group) (c : Cur) (o : Slice → Outcomes) : Exc :=
  (g.inCur c).foldl (fun e x => e ||| (o x).exc) 0

/-- A pass whose destinations are written at issue. -/
def Group.fixedPass (g : Group) (c : Cur) (gd : Guard) (rd : List Reg) (f : LaneFn) : Group :=
  let o := g.outcomes c gd rd f
  { g with mode := orFlags g.mode (g.passExc c o),
           slices := g.slices.map fun x => if x.inGang c.gang then x.fixedPass g c (o x) else x }

/-- Writes of a slice's lanes, for an operation. -/
def Outcomes.writes (o : Outcomes) (n : Nat) : List RegWrite :=
  lanes4.flatMap fun j => match o.res j with
    | some r => r.regs.map fun w => .lane n j.val w.1 w.2 false
    | none => []

/-- A pass whose destinations are written later (R193). -/
def Group.varPass (g : Group) (c : Cur) (gd : Guard) (rd wr : List Reg) (f : LaneFn) : Group :=
  let o := g.outcomes c gd rd f
  let g1 := (g.inCur c).foldl (fun (h : Group) x =>
    let ws := (o x).writes x.num
    if ws.isEmpty then h else h.addOp x (.result ws) none false) g
  { g1 with mode := orFlags g.mode (g.passExc c o),
            slices := g.slices.map fun x => if x.inGang c.gang then x.varPass g c wr (o x).fault else x }

/-- A lane instruction of fixed latency that reads rd and writes wr. -/
def State.laneFixed (s : State) (gd : Guard) (rd wr : List Reg) (f : LaneFn) : State :=
  s.checked rd wr fun s => s.updTeam s.cur.team (·.mapGroups fun g => g.fixedPass s.cur gd rd f)

/-- A lane instruction of variable latency. -/
def State.laneVar (s : State) (gd : Guard) (rd wr : List Reg) (f : LaneFn) : State :=
  s.checked rd wr fun s => s.updTeam s.cur.team (·.mapGroups fun g => g.varPass s.cur gd rd wr f)

/-! Lanes that act on more than their slice: memory accesses and deposits. -/

/-- What an access of a lane does at issue: the state, and the access that is then to be performed; or a fault. -/
abbrev LaneAct := State → Team → Group → Slice → Fin 4 → Lane → Except FaultInfo (State × Option Part)

/-- Accesses of the lanes of a slice: the state, what is to be performed, the faults. -/
def State.sliceActs (s : State) (gd : Guard) (rd : List Reg) (act : LaneAct) (g : Group) (x : Slice) :
    List (Fin 4) → State × List Part × List (Fin 4 × FaultInfo)
  | [] => (s, [], [])
  | j :: js =>
    let l := x.lane j
    if s.cur.inPass x j && l.guard gd then
      if x.lanePoison g.budget rd l then
        let r := s.sliceActs gd rd act g x js
        (r.1, r.2.1, (j, { cls := .poison, reason := 1 }) :: r.2.2)
      else
        match s.team? s.cur.team with
        | none => (s, [], [])
        | some t =>
          match act s t g x j l with
          | .error f =>
            let r := s.sliceActs gd rd act g x js
            (r.1, r.2.1, (j, f) :: r.2.2)
          | .ok (s1, p) =>
            let r := s1.sliceActs gd rd act g x js
            (r.1, p.toList ++ r.2.1, r.2.2)
    else s.sliceActs gd rd act g x js

/-- A group with a slice's accesses on their way (R264, R275): those that bring no value back take no flag. -/
def Group.addAccess (g : Group) (x : Slice) (ord : Order) (parts : List Part) : Group :=
  if parts.isEmpty then g
  else
    let h := g.addOp x (.access ord parts []) none false
    if parts.all (·.dst.isEmpty) then h.updOp g.nextOp fun o => { o with rflag := none, sflag := none } else h

/-- A slice's part of an access instruction of the lanes. -/
def State.sliceAccess (s : State) (gd : Guard) (rd wr : List Reg) (ord : Order) (act : LaneAct) (n : Nat) (k : Nat) : State :=
  match s.team? s.cur.team with
  | none => s
  | some t =>
    match t.group? n with
    | none => s
    | some g =>
      match g.slice? k with
      | none => s
      | some x =>
        let g0 := s.cur.source g
        let r := s.sliceActs gd rd act g0 ((g0.slice? k).getD x) lanes4
        let fault := fun j => (r.2.2.find? (·.1 == j)).map (·.2)
        (r.1.updGroup s.cur.team n fun h => h.addAccess x ord r.2.1).updSlice s.cur.team n k fun y => y.varPass g s.cur wr fault

/-- A lane instruction that accesses memory (R275, R277, R279) or deposits (R298); it consumes the poison of the registers
pr among those that it reads (R276, R361). -/
def State.laneAccessOf (s : State) (gd : Guard) (pr rd wr : List Reg) (ord : Order) (act : LaneAct) : State :=
  s.checked rd wr fun s =>
    (s.members.map fun m => (m.1.num, m.2.num)).foldl (fun (s : State) m => s.sliceAccess gd pr wr ord act m.1 m.2) s

def State.laneAccess (s : State) (gd : Guard) (rd wr : List Reg) (ord : Order) (act : LaneAct) : State :=
  s.laneAccessOf gd rd rd wr ord act

/-! Scalar instructions. -/

/-- What a scalar instruction does in a slice; poison in a source is consumed first (R361). -/
def scalarOutcome (rd : List Reg) (f : Group → Slice → Except FaultInfo Slice) (g : Group) (x : Slice) : Except FaultInfo Slice :=
  if x.scalarPoison rd then .error { cls := .poison, reason := 1 } else f g x

/-- Slices in which a scalar instruction faults. -/
def State.scalarBad (s : State) (rd : List Reg) (f : Group → Slice → Except FaultInfo Slice) : List (Slice × Rec) :=
  s.members.filterMap fun m => match scalarOutcome rd f m.1 m.2 with
    | .error i => some (m.2, mkRec m.1 m.2 0 i)
    | .ok _ => none

/-- The instruction runs in no slice: the gang replays (R362), or a slice that faults is held with its gang (R368; log 21). -/
def State.stopsWhole (s : State) (bad : List (Slice × Rec)) : Bool := !bad.isEmpty && (s.replayOk bad || s.debugged)

/-- A scalar instruction past its dependence check. -/
def State.runScalar (s : State) (rd : List Reg) (f : Group → Slice → Except FaultInfo Slice) : State :=
  let bad := s.scalarBad rd f
  let s1 := s.mapGang fun g x => match scalarOutcome rd f g x with
    | .ok y => y
    | .error _ => x
  if bad.isEmpty then s1
  else if s.stopsWhole bad then s.preciseTraps bad
  else s1.raise bad

/-- A scalar instruction that touches its slice alone: it runs once in every slice of the gang (R177, R223). -/
def State.scalar (s : State) (rd wr : List Reg) (f : Group → Slice → Except FaultInfo Slice) : State :=
  s.checked rd wr fun s => s.runScalar rd f

/-- Slices of a group of the issuing gang in which a scalar instruction does not fault. -/
def Group.okSlices (g : Group) (c : Cur) (rd : List Reg) (f : Group → Slice → Except FaultInfo Slice) : List Slice :=
  (g.inCur c).filter fun x => match scalarOutcome rd f g x with
    | .ok _ => true
    | .error _ => false

/-- A scalar instruction that also changes its group, once for each group: h makes the change from the group as it was
and its slices that do not fault. -/
def State.scalarGroup (s : State) (rd wr : List Reg) (f : Group → Slice → Except FaultInfo Slice)
    (h : Group → List Slice → Group → Group) : State :=
  s.checked rd wr fun s =>
    let s1 := s.runScalar rd f
    if s.stopsWhole (s.scalarBad rd f) then s1
    else
      match s.team? s.cur.team with
      | none => s1
      | some t => s1.updTeam t.uid (·.mapGroups fun g1 => match t.group? g1.num with
          | none => g1
          | some g => match g.okSlices s.cur rd f with
            | [] => g1
            | ok => h g ok g1)

/-- The value of s[sa] that a group takes when its slices may differ: that of the highest-numbered slice of the gang (R237,
R303). -/
def Group.topValue (g : Group) (c : Cur) (a : SReg) : Word :=
  match (g.inCur c).getLast? with
  | some x => x.getS a
  | none => 0

/-- How a scalar access ends in a slice. -/
inductive SlEnd where
  | ok (s : State)
  | fault (f : FaultInfo)
  | park (va : Nat) (f : WalkFault)
  | wait (h : Hold)
  /-- it waits, having read -/
  | waits (s : State) (h : Hold)

/-- What a scan over the slices of a gang has found. -/
structure Scan where
  s : State
  faults : List (Slice × Rec) := []
  parks : List (Nat × Nat × Nat × WalkFault) := []

/-- One slice of the scan. -/
def Scan.step (a : Scan) (rd : List Reg) (f : State → Team → Group → Slice → SlEnd) (n k : Nat) : Scan :=
  match a.s.team? a.s.cur.team with
  | none => a
  | some t =>
    match t.group? n with
    | none => a
    | some g =>
      match g.slice? k with
      | none => a
      | some x =>
        if x.sdone || x.isParked || x.isHeld then a
        else if x.scalarPoison rd then
          { a with faults := a.faults ++ [(x, mkRec g x 0 { cls := .poison, reason := 1 })] }
        else
          match f a.s t g x with
          | .ok s1 => { a with s := s1.updSlice a.s.cur.team n k fun y => { y with sdone := true } }
          | .fault i => { a with faults := a.faults ++ [(x, mkRec g x 0 i)] }
          | .park va w => { a with parks := a.parks ++ [(n, k, va, w)] }
          | .wait h => { a with s := a.s.updSlice a.s.cur.team n k fun y => { y with hold := h } }
          | .waits s1 h => { a with s := s1.updSlice a.s.cur.team n k fun y => { y with hold := h } }

/-- Lanes of the slices of a group that have not completed (R359). -/
def Group.unfinished (g : Group) (gang : Nat) : Word :=
  (g.slices.filter fun x => x.inGang gang && !x.sdone).foldl (fun w x => w ||| BitVec.ofNat 32 (0xF * 2 ^ (4 * x.num))) 0

/-- A slice parks; a collapse of its page begins (R113, R359). -/
def State.parkSlice (s : State) (p : Nat × Nat × Nat × WalkFault) : State :=
  let s1 := s.updSlice s.cur.team p.1 p.2.1 fun x => { x with hold := .parked (BitVec.ofNat 64 p.2.2.1) }
  match p.2.2.2, s.team? s.cur.team with
  | .collapse, some t => s1.beginCollapse t.die.val t.partition p.2.2.1
  | _, _ => s1

/-- The record of a group's page fault: its lowest slice that parked on one (R359). -/
def State.pageRecord (s : State) (p : Nat × Nat × Nat × WalkFault) : State :=
  match s.team? s.cur.team with
  | none => s
  | some t =>
    match t.group? p.1 with
    | none => s
    | some g =>
      match g.slice? p.2.1 with
      | none => s
      | some x =>
        let r := mkRec g x 0 { cls := .page, detail := BitVec.ofNat 64 p.2.2.1 }
        (s.record t { r with flags := 2, laneMask := g.unfinished s.cur.gang }).1

/-- The page faults that are recorded: in each group the lowest slice of each page (R359). -/
def firstParks : List (Nat × Nat × Nat × WalkFault) → List (Nat × Nat) → List (Nat × Nat × Nat × WalkFault)
  | [], _ => []
  | p :: r, seen =>
    let k := (p.1, p.2.2.1 / 4096)
    if p.2.2.2 != .page || seen.contains k then firstParks r seen else p :: firstParks r (k :: seen)

/-- The gang's members have all completed: they go on. -/
def State.endScalar (s : State) : State :=
  if s.members.all (fun m => m.2.sdone) then s.mapGang fun _ x => x.done else s

/-- A scalar instruction whose slices each act on the state, in slice order (R177). Slices that completed keep what they
did; faulting ones trap, parked ones hold the gang (R274, R359). It consumes the poison of the registers pr among those
that it reads (R276, R361). -/
def State.scalarEachOf (s : State) (pr rd wr : List Reg) (f : State → Team → Group → Slice → SlEnd) : State :=
  s.checked rd wr fun s =>
    let a := (s.members.map fun m => (m.1.num, m.2.num)).foldl (fun (a : Scan) m => a.step pr f m.1 m.2) { s := s }
    let s1 := a.parks.foldl (fun (s : State) p => s.parkSlice p) a.s
    let s2 := (firstParks a.parks []).foldl (fun (s : State) p => s.pageRecord p) s1
    if a.faults.isEmpty then s2.endScalar
    else (s2.preciseTraps a.faults).endScalar

def State.scalarEach (s : State) (rd wr : List Reg) (f : State → Team → Group → Slice → SlEnd) : State :=
  s.scalarEachOf rd rd wr f

end Sys2Proof.Machine
end

