-- ==== Sys2Proof/Machine/Fetch.lean ====
section
/-! DEFINITION. Text: which section a team runs (R32), its pages and their verification (R135, R136), the filling of a clause
buffer (R124, R131, R142), and the clause header (R130 to R133). -/

namespace Sys2Proof.Machine

/-! Text of a launch. -/

/-- Offset in the object, size and entry of the text that runs on a generation (R32). -/
def Launch.text (l : Launch) (gen : Nat) : Nat × Nat × Nat :=
  if gen = 6 ∧ l.header.entry6 ≠ 0xFFFFFFFF then (l.sections.text6, l.sections.size6, l.header.entry6)
  else (l.sections.text5, l.sections.size5, l.header.entry5)

/-- The object installed last at an address; one that it has replaced stays for the launches bound to it (R37, log 36). -/
def State.object? (s : State) (p : Nat) (addr : DWord) : Option CodeObject :=
  s.objects.find? fun o => o.partition.val == p && o.addr == addr

def CodeObject.version? (o : CodeObject) (num : Word) : Option Version := o.versions.find? (·.num == num)

/-- Bytes of a page of an object in one of its versions: the patch engine's frame, or the object's own bytes read by die d
(R139). A frame takes the place of the object's page, whose walk is made and checked as for that page (R135; log 56). -/
def State.pageBytes (s : State) (d : Nat) (o : CodeObject) (v : Version) (pg : Nat) (acc : Access) :
    Except (Nat × WalkFault) (List Byte) :=
  let va := o.addr.toNat + 4096 * pg
  match v.pages.find? (·.1 == pg) with
  | some p =>
    match s.translate d o.partition.val acc va with
    | .ok _ => .ok p.2
    | .error f => .error (va, f)
  | none =>
    match s.readGlobal d o.partition.val acc va 4096 with
    | .ok bs => .ok (bs.map (·.1))
    | .error e => .error e

/-- The digest that a version's page-hash table gives for a page (R30); none when the table cannot be read. A page at or past
the data offset has no entry there, and the bytes where one would lie are taken (log 55). -/
def State.pageDigest (s : State) (d : Nat) (o : CodeObject) (v : Version) (pg : Nat) : Option (BitVec 256) :=
  match v.digests.find? (·.1 == pg) with
  | some p => some p.2
  | none =>
    match s.readGlobal d o.partition.val .agent (o.addr.toNat + o.sections.hashes + 32 * pg) 32 with
    | .ok bs => some (BitVec.ofNat 256 (fromLE (bs.map (·.1))))
    | .error _ => none

/-- The verified page of a die's text buffer. -/
def Die.textPage? (d : Die) (l : Launch) (pg : Nat) : Option TextPage :=
  d.text.find? fun x => x.object == l.code && x.version == l.version && x.page == pg

/-- The object of a model's name, changed. -/
def State.updObject (s : State) (uid : Nat) (f : CodeObject → CodeObject) : State :=
  { s with objects := s.objects.map fun x => if x.uid = uid then f x else x }

/-- The object and version that a launch is bound to. -/
def State.code? (s : State) (l : Launch) : Option (CodeObject × Version) :=
  (s.objects.find? (·.uid == l.code)).bind fun o => (o.version? l.version).map fun v => (o, v)

/-- A word of the text at an offset, from the die's verified pages. -/
def State.textWord (s : State) (d : Nat) (l : Launch) (off : Nat) : Option Word :=
  let at' := (l.text (Config.generation d)).1 + off
  ((s.die d).textPage? l (at' / 4096)).map fun p => BitVec.ofNat 32 (leAt p.bytes (at' % 4096) 4)

/-- A word of the text as it stands, verified or not; none when it cannot be read. -/
def State.rawWord (s : State) (d : Nat) (l : Launch) (off : Nat) : Option Word :=
  match s.textWord d l off with
  | some w => some w
  | none =>
    match s.code? l with
    | none => none
    | some (o, v) =>
      let at' := (l.text (Config.generation d)).1 + off
      match s.pageBytes d o v (at' / 4096) .fetch with
      | .ok bs => some (BitVec.ofNat 32 (leAt bs (at' % 4096) 4))
      | .error _ => none

/-- An offset is a legal target of a transfer: a clause header inside the text section (R131). Text that cannot be read is
judged when it is fetched. -/
def State.isTarget (s : State) (t : Team) (off : Word) : Bool :=
  match s.launch? t.launch with
  | none => false
  | some l =>
    off.toNat % 4 == 0 && decide (off.toNat + 4 ≤ (l.text (Config.generation t.die.val)).2.1) &&
    (match s.rawWord t.die.val l off.toNat with
      | some w => isHeader w
      | none => true)

/-! Filling a clause buffer. -/

/-- Words of a clause, or the offset of a word that is not at hand. -/
inductive Fill where
  | words (ws : List Word)
  | missing (off : Nat)
  deriving DecidableEq, Repr

def Fill.cons (w : Word) : Fill → Fill
  | .words ws => .words (w :: ws)
  | m => m

/-- Words after a header, up to the next header, the end of the section, or a 17th instruction (R124, R131). -/
def fillBody (read : Nat → Option Word) (size : Nat) : Nat → Nat → Fill
  | 0, _ => .words []
  | n + 1, off =>
    if off + 4 > size then .words []
    else
      match read off with
      | none => .missing off
      | some w =>
        if isHeader w then .words []
        else if n = 0 || !bit w 30 || off + 8 > size then (fillBody read size n (off + 4)).cons w
        else
          match read (off + 4) with
          | none => .missing (off + 4)
          | some e => ((fillBody read size n (off + 8)).cons e).cons w

/-- The clause at an offset in plane 0: its header and up to 17 instructions. -/
def fillPlane0 (read : Nat → Option Word) (size off : Nat) : Fill :=
  if off + 4 > size then .words []
  else
    match read off with
    | none => .missing off
    | some w => (fillBody read size 17 (off + 4)).cons w

/-- n words from an offset of a section, or those up to its end (R142). -/
def fillCopy (read : Nat → Option Word) (size : Nat) : Nat → Nat → Fill
  | 0, _ => .words []
  | n + 1, off =>
    if off + 4 > size then .words []
    else
      match read off with
      | none => .missing off
      | some w => (fillCopy read size n (off + 4)).cons w

/-- Planes that active lanes of a gang occupy (R124, R126). -/
def Team.occupied (t : Team) (gang : Nat) : List (Fin 4) :=
  lanes4.filter fun p => (t.members gang).any fun m => lanes4.any fun j => bit m.2.em j.val && (m.2.lane j).pl == p

/-- A plane's bit in the kernel's plane mask. -/
def Launch.hasPlane (l : Launch) (p : Fin 4) : Bool := l.header.planeMask / 2 ^ p.val % 2 == 1

/-- Planes whose copy a gang reads: plane 0 and the occupied ones of the plane mask. -/
def Team.copies (t : Team) (l : Launch) (gang : Nat) : List (Fin 4) :=
  lanes4.filter fun p => p == 0 || ((t.occupied gang).contains p && l.hasPlane p)

/-- Offset of plane p's copy (R122). -/
def planeOffset (l : Launch) (p : Fin 4) (off : Nat) : Nat := off + (if p = 0 then 0 else p.val * 2 ^ l.header.stride)

/-- What a fill of a gang finds: the buffer, or the first page that is missing, with the word's plane and offset in
plane 0's numbering. -/
inductive FillEnd where
  | buf (b : ClauseBuf)
  | page (pg : Nat) (plane : Fin 4) (off : Nat)
  deriving DecidableEq, Repr

/-- A plane's copy in a buffer: one with no word inside its section holds a word that is no header. -/
def ClauseBuf.put (b : ClauseBuf) (p : Fin 4) (ws : List Word) : ClauseBuf :=
  { b with planes := b.planes.set p (if ws.isEmpty then [0] else ws) }

/-- The copies of further planes added to a buffer, one after another: a clause that is older than an in-place patch takes
the words of before it (R140). -/
def State.fillPlanes (s : State) (t : Team) (l : Launch) (off n : Nat) : List (Fin 4) → ClauseBuf → FillEnd
  | [], b => .buf b
  | p :: ps, b =>
    if !(b.planes[p]).isEmpty then s.fillPlanes t l off n ps b
    else if !(b.old[p]).isEmpty then s.fillPlanes t l off n ps (b.put p (b.old[p]))
    else
      let text := l.text (Config.generation t.die.val)
      match fillCopy (s.textWord t.die.val l) text.2.1 n (planeOffset l p off) with
      | .words ws => s.fillPlanes t l off n ps (b.put p ws)
      | .missing o => .page ((text.1 + o) / 4096) p (o - planeOffset l p 0)

/-- The clause of a gang, read from the die's verified pages; a buffer that the gang holds keeps its words. -/
def State.fillGang (s : State) (t : Team) (l : Launch) (gang : Nat) (x : Slice) : FillEnd :=
  let ps := t.copies l gang
  match x.cbuf with
  | some b => s.fillPlanes t l b.base.toNat (b.planes[0]).length ps b
  | none =>
    let off := x.offset.toNat
    match fillPlane0 (s.textWord t.die.val l) (l.text (Config.generation t.die.val)).2.1 off with
    | .missing o => .page (((l.text (Config.generation t.die.val)).1 + o) / 4096) 0 o
    | .words ws =>
      s.fillPlanes t l off ws.length (ps.filter (· != 0)) { base := x.offset, planes := (Vector.replicate 4 []).set 0 ws }

/-- The gang lacks its clause, or the copy of a plane that it occupies (R124). -/
def Team.needsFill (t : Team) (l : Launch) (gang : Nat) : Bool :=
  (t.members gang).any fun m =>
    match m.2.cbuf with
    | none => true
    | some b => (t.copies l gang).any fun p => (b.planes[p]).isEmpty && !(b.planes[0]).isEmpty

/-- The gang's slices may be served: none waits, is held, or has lost its team's clock. -/
def Slice.free (x : Slice) : Bool :=
  x.hold == .none && match x.dbg with
    | .none | .stopSoon | .stepping => true
    | _ => false

/-- CLAUSE_FILL (R124): the gang's slices take the buffer when every page of the clause is verified. -/
def execClauseFill (o : GangRef) (s : State) : Out :=
  match s.team? o.team with
  | none => .next s
  | some t =>
    match s.launch? t.launch, (t.members o.gang).head? with
    | some l, some m =>
      if !t.needsFill l o.gang || t.frozen then .next s
      else
        match s.fillGang t l o.gang m.2 with
        | .page _ _ _ => .next s
        | .buf b => .next (s.updTeam t.uid (·.mapGang o.gang fun _ x => { x with cbuf := some b }))
    | _, _ => .next s

/-! Verification (R135, R136). -/

/-- Gangs that need a page of a launch's text on a die and neither wait nor are held, with the plane and offset of the first
word that lies there. -/
def State.waiters (s : State) (die launch pg : Nat) : List (Team × Nat × Fin 4 × Nat) :=
  (s.teams.filter fun t => t.die.val == die && t.launch == launch && !t.frozen).flatMap fun t =>
    match s.launch? launch with
    | none => []
    | some l =>
      (t.groups.flatMap Group.gangs).eraseDups.filterMap fun k =>
        match (t.members k).head? with
        | none => none
        | some m =>
          if !t.needsFill l k || !(t.members k).all (·.2.free) then none
          else
            match s.fillGang t l k m.2 with
            | .page q p o => if q = pg then some (t, k, p, o) else none
            | .buf _ => none

/-- A text fault of the gangs that need a page: every group of them traps, in the record of an older deferred fault where
there is one, or the gang replays (R136, R356, R362). -/
def State.textFault (s : State) (ws : List (Team × Nat × Fin 4 × Nat)) (f : FaultInfo) : State :=
  ws.foldl (fun (s : State) w =>
    let s1 := { s with cur := { team := w.1.uid, gang := w.2.1 } }
    let rs := s1.members.map fun m =>
      (m.2, { mkRec m.1 m.2 w.2.2.1 f with offset := BitVec.ofNat 32 w.2.2.2, word := 0, ext := 0 })
    { (s1.preciseTraps rs).rendezvous w.1.uid with cur := s.cur }) s

/-- Slices that need text of a page that is not there park on it (R107, R359; log 15). -/
def State.textPark (s : State) (ws : List (Team × Nat × Fin 4 × Nat)) (va : Nat) : State :=
  ws.foldl (fun (s : State) w =>
    let t := w.1
    let s1 := s.updTeam t.uid (·.mapGang w.2.1 fun _ x => { x with hold := .parked (BitVec.ofNat 64 va) })
    let rs := (t.members w.2.1).map fun m =>
      (m.2, { mkRec m.1 m.2 w.2.2.1 { cls := .page, detail := BitVec.ofNat 64 va } with flags := 2, offset := BitVec.ofNat 32 w.2.2.2, word := 0, ext := 0 })
    (firstOfGroups rs []).foldl (fun (s : State) r => (s.record t r.2).1) s1) s

/-- TEXT_PAGE_VERIFY (R135, R136): the page joins the die's text buffer, or the gangs that need it fault. -/
def execTextPageVerify (o : PageRef) (s : State) : Out :=
  match s.launch? o.launch with
  | none => .next s
  | some l =>
    match s.code? l with
    | none => .next s
    | some (ob, v) =>
      if ((s.die o.die.val).textPage? l o.page).isSome then .next s
      else
        let ws := s.waiters o.die.val o.launch o.page
        if ws.isEmpty then .next s
        else
          match s.pageBytes o.die.val ob v o.page .fetch with
          | .error (va, f) =>
            if f.parks then .next (s.textPark ws va) else .next (s.textFault ws (f.info (BitVec.ofNat 64 va)))
          | .ok bs =>
            if s.pageDigest o.die.val ob v o.page = some (sha3 bs) then
              let p : TextPage := { object := ob.uid, version := l.version, page := o.page, bytes := bs }
              .next (s.updDie o.die.val fun d => { d with text := d.text ++ [p] })
            else .next (s.textFault ws { cls := .codeIntegrity, detail := ob.addr + BitVec.ofNat 64 (4096 * o.page) })

/-! The clause header. -/

/-- A slice starts a clause: waited marks go, the flags of the set fields are set, sg is 0 (R132, R133, R240). -/
def Slice.startClause (x : Slice) (o : HeaderArgs) : Slice :=
  { x with marks := x.marks.filter fun m => !waited o.wait m.flag, f := x.f ||| flagBit o.rflag ||| flagBit o.sflag,
           rflag := o.rflag, sflag := o.sflag, yieldHint := o.yield, sg := 0, offset := x.offset + 4, inClause := true }

/-- Tokens that a clause start returns: those of a group whose slice 0 starts a clause that waits on their flags (R96). -/
def Team.returnTokens (t : Team) (gang : Nat) (wait : BitVec 12) : Team :=
  let starts := fun (n : Nat) => (t.members gang).any fun m => m.1.num == n && m.2.num == 0
  { t with tokens := t.tokens.filter fun k => !(starts k.group && (waited wait k.rflag || waited wait k.sflag)) }

/-- CLAUSE_HEADER: the gang starts the clause when its waited flags are clear (R130 to R133); an empty clause is an illegal
encoding (R131). -/
def execClauseHeader (o : HeaderArgs) (s : State) : Out :=
  if s.members.any fun m => m.2.f &&& o.wait != 0 then .next s
  else if s.members.any fun m => decide ((m.2.planeWords 0).length ≤ 1) then
    .next (s.raiseGang 0 { cls := .illegalEncoding, reason := 0xF })
  else .next (s.updTeam s.cur.team fun t => (t.returnTokens s.cur.gang o.wait).mapGang s.cur.gang fun _ x => x.startClause o)

end Sys2Proof.Machine
end

