-- ==== Sys2Proof/Machine/Lane.lean ====
section
/-! DEFINITION. The short-form lane instructions: integer arithmetic, logic, shifts, compares, predicates and LID (R199 to
R204). -/

namespace Sys2Proof.Machine

/-! Shared shapes. -/

/-- vd from two registers. -/
def State.lane2 (s : State) (o : LaneR) (f : Word → Word → Word) : State :=
  s.laneFixed o.g [.v o.a, .v o.b] [.v o.d] fun g x _ l =>
    .ok { regs := [(x.phys g.budget o.d, f (l.get (x.phys g.budget o.a)) (l.get (x.phys g.budget o.b)))] }

/-- vd from a register and the immediate. -/
def State.lane2i (s : State) (o : LaneI) (f : Word → Word → Word) : State :=
  s.laneFixed o.g [.v o.a] [.v o.d] fun g x _ l =>
    .ok { regs := [(x.phys g.budget o.d, f (l.get (x.phys g.budget o.a)) o.imm)] }

/-- vd from one register. -/
def State.lane1 (s : State) (o : LaneU) (f : Word → Word) : State :=
  s.laneFixed o.g [.v o.a] [.v o.d] fun g x _ l =>
    .ok { regs := [(x.phys g.budget o.d, f (l.get (x.phys g.budget o.a)))] }

/-- pd from a relation of two registers (R202). -/
def State.laneCmp (s : State) (o : CmpR) (f : Word → Word → Bool) : State :=
  s.laneFixed o.g [.v o.a, .v o.b] [] fun g x _ l =>
    .ok { preds := [(o.pd, f (l.get (x.phys g.budget o.a)) (l.get (x.phys g.budget o.b)))] }

/-- pd from a relation of a register and the immediate. -/
def State.laneCmpi (s : State) (o : CmpI) (f : Word → Word → Bool) : State :=
  s.laneFixed o.g [.v o.a] [] fun g x _ l => .ok { preds := [(o.pd, f (l.get (x.phys g.budget o.a)) o.imm)] }

/-- pd from two predicates (R203). -/
def State.lanePred (s : State) (gd : Guard) (pd : PReg) (f : Lane → Bool) : State :=
  s.laneFixed gd [] [] fun _ _ _ l => .ok { preds := [(pd, f l)] }

/-! The operations on words. -/

/-- Bits 63 to 32 of the signed product. -/
def mulhiS (a b : Word) : Word := BitVec.ofInt 32 (a.toInt * b.toInt / 2 ^ 32)
/-- Bits 63 to 32 of the unsigned product. -/
def mulhiU (a b : Word) : Word := BitVec.ofNat 32 (a.toNat * b.toNat / 2 ^ 32)
def minS (a b : Word) : Word := if a.slt b then a else b
def maxS (a b : Word) : Word := if a.slt b then b else a
def minU (a b : Word) : Word := if a.ult b then a else b
def maxU (a b : Word) : Word := if a.ult b then b else a
/-- Shifts by all 32 bits of the count, read unsigned (R200, R226). -/
def shlW (a n : Word) : Word := a <<< n.toNat
def shrW (a n : Word) : Word := a >>> n.toNat
def sarW (a n : Word) : Word := a.sshiftRight n.toNat
def rolW (a n : Word) : Word := a.rotateLeft (n.toNat % 32)
def popcW (a : Word) : Word := BitVec.ofNat 32 (popCount 32 a.toNat)
def clzW (a : Word) : Word := BitVec.ofNat 32 (32 - bitLen 32 a.toNat)
def brevW (a : Word) : Word := BitVec.ofNat 32 (revBits 32 a.toNat)
/-- |a| mod 2^32. -/
def absW (a : Word) : Word := if a.slt 0 then -a else a

/-! The instructions. -/

/-- ADD_I32 (R199). -/
def execAddI32 (o : LaneR) (s : State) : Out := .next (s.lane2 o (· + ·))
/-- ADD_I32 with an immediate (R199). -/
def execAddI32Imm (o : LaneI) (s : State) : Out := .next (s.lane2i o (· + ·))
/-- SUB_I32 (R199). -/
def execSubI32 (o : LaneR) (s : State) : Out := .next (s.lane2 o (· - ·))
/-- SUB_I32 with an immediate (R199). -/
def execSubI32Imm (o : LaneI) (s : State) : Out := .next (s.lane2i o (· - ·))
/-- MUL_I32 (R199). -/
def execMulI32 (o : LaneR) (s : State) : Out := .next (s.lane2 o (· * ·))
/-- MUL_I32 with an immediate (R199). -/
def execMulI32Imm (o : LaneI) (s : State) : Out := .next (s.lane2i o (· * ·))
/-- MULHI_I32 (R199). -/
def execMulhiI32 (o : LaneR) (s : State) : Out := .next (s.lane2 o mulhiS)
/-- MULHI_I32 with an immediate (R199). -/
def execMulhiI32Imm (o : LaneI) (s : State) : Out := .next (s.lane2i o mulhiS)
/-- MULHI_N32 (R199). -/
def execMulhiN32 (o : LaneR) (s : State) : Out := .next (s.lane2 o mulhiU)
/-- MULHI_N32 with an immediate (R199). -/
def execMulhiN32Imm (o : LaneI) (s : State) : Out := .next (s.lane2i o mulhiU)
/-- MIN_I32 (R199). -/
def execMinI32 (o : LaneR) (s : State) : Out := .next (s.lane2 o minS)
/-- MIN_I32 with an immediate (R199). -/
def execMinI32Imm (o : LaneI) (s : State) : Out := .next (s.lane2i o minS)
/-- MAX_I32 (R199). -/
def execMaxI32 (o : LaneR) (s : State) : Out := .next (s.lane2 o maxS)
/-- MAX_I32 with an immediate (R199). -/
def execMaxI32Imm (o : LaneI) (s : State) : Out := .next (s.lane2i o maxS)
/-- MIN_N32 (R199). -/
def execMinN32 (o : LaneR) (s : State) : Out := .next (s.lane2 o minU)
/-- MIN_N32 with an immediate (R199). -/
def execMinN32Imm (o : LaneI) (s : State) : Out := .next (s.lane2i o minU)
/-- MAX_N32 (R199). -/
def execMaxN32 (o : LaneR) (s : State) : Out := .next (s.lane2 o maxU)
/-- MAX_N32 with an immediate (R199). -/
def execMaxN32Imm (o : LaneI) (s : State) : Out := .next (s.lane2i o maxU)
/-- AND (R200). -/
def execAnd (o : LaneR) (s : State) : Out := .next (s.lane2 o (· &&& ·))
/-- AND with an immediate (R200). -/
def execAndImm (o : LaneI) (s : State) : Out := .next (s.lane2i o (· &&& ·))
/-- OR (R200). -/
def execOr (o : LaneR) (s : State) : Out := .next (s.lane2 o (· ||| ·))
/-- OR with an immediate (R200). -/
def execOrImm (o : LaneI) (s : State) : Out := .next (s.lane2i o (· ||| ·))
/-- XOR (R200). -/
def execXor (o : LaneR) (s : State) : Out := .next (s.lane2 o (· ^^^ ·))
/-- XOR with an immediate (R200). -/
def execXorImm (o : LaneI) (s : State) : Out := .next (s.lane2i o (· ^^^ ·))
/-- ANDN (R200). -/
def execAndn (o : LaneR) (s : State) : Out := .next (s.lane2 o (fun a b => a &&& ~~~ b))
/-- ANDN with an immediate (R200). -/
def execAndnImm (o : LaneI) (s : State) : Out := .next (s.lane2i o (fun a b => a &&& ~~~ b))
/-- SHL (R200). -/
def execShl (o : LaneR) (s : State) : Out := .next (s.lane2 o shlW)
/-- SHL with an immediate (R200). -/
def execShlImm (o : LaneI) (s : State) : Out := .next (s.lane2i o shlW)
/-- SHR_N32 (R200). -/
def execShrN32 (o : LaneR) (s : State) : Out := .next (s.lane2 o shrW)
/-- SHR_N32 with an immediate (R200). -/
def execShrN32Imm (o : LaneI) (s : State) : Out := .next (s.lane2i o shrW)
/-- SHR_I32 (R200). -/
def execShrI32 (o : LaneR) (s : State) : Out := .next (s.lane2 o sarW)
/-- SHR_I32 with an immediate (R200). -/
def execShrI32Imm (o : LaneI) (s : State) : Out := .next (s.lane2i o sarW)
/-- ROL (R200). -/
def execRol (o : LaneR) (s : State) : Out := .next (s.lane2 o rolW)
/-- ROL with an immediate (R200). -/
def execRolImm (o : LaneI) (s : State) : Out := .next (s.lane2i o rolW)
/-- POPC (R200). -/
def execPopc (o : LaneU) (s : State) : Out := .next (s.lane1 o popcW)
/-- CLZ (R200). -/
def execClz (o : LaneU) (s : State) : Out := .next (s.lane1 o clzW)
/-- BREV (R200). -/
def execBrev (o : LaneU) (s : State) : Out := .next (s.lane1 o brevW)
/-- MOV (R201). -/
def execMov (o : LaneU) (s : State) : Out := .next (s.lane1 o id)
/-- ABS_I32 (R201). -/
def execAbsI32 (o : LaneU) (s : State) : Out := .next (s.lane1 o absW)
/-- NEG_I32 (R201). -/
def execNegI32 (o : LaneU) (s : State) : Out := .next (s.lane1 o (- ·))
/-- MOV with an immediate (R201). -/
def execMovImm (o : LaneM) (s : State) : Out :=
  .next (s.laneFixed o.g [] [.v o.d] fun g x _ _ => .ok { regs := [(x.phys g.budget o.d, o.imm)] })

/-- SETEQ_I32 (R202). -/
def execSeteqI32 (o : CmpR) (s : State) : Out := .next (s.laneCmp o (· == ·))
/-- SETEQ_I32 with an immediate (R202). -/
def execSeteqI32Imm (o : CmpI) (s : State) : Out := .next (s.laneCmpi o (· == ·))
/-- SETNE_I32 (R202). -/
def execSetneI32 (o : CmpR) (s : State) : Out := .next (s.laneCmp o (· != ·))
/-- SETNE_I32 with an immediate (R202). -/
def execSetneI32Imm (o : CmpI) (s : State) : Out := .next (s.laneCmpi o (· != ·))
/-- SETLT_I32 (R202). -/
def execSetltI32 (o : CmpR) (s : State) : Out := .next (s.laneCmp o BitVec.slt)
/-- SETLT_I32 with an immediate (R202). -/
def execSetltI32Imm (o : CmpI) (s : State) : Out := .next (s.laneCmpi o BitVec.slt)
/-- SETLE_I32 (R202). -/
def execSetleI32 (o : CmpR) (s : State) : Out := .next (s.laneCmp o BitVec.sle)
/-- SETLE_I32 with an immediate (R202). -/
def execSetleI32Imm (o : CmpI) (s : State) : Out := .next (s.laneCmpi o BitVec.sle)
/-- SETLT_N32 (R202). -/
def execSetltN32 (o : CmpR) (s : State) : Out := .next (s.laneCmp o BitVec.ult)
/-- SETLT_N32 with an immediate (R202). -/
def execSetltN32Imm (o : CmpI) (s : State) : Out := .next (s.laneCmpi o BitVec.ult)
/-- SETLE_N32 (R202). -/
def execSetleN32 (o : CmpR) (s : State) : Out := .next (s.laneCmp o BitVec.ule)
/-- SETLE_N32 with an immediate (R202). -/
def execSetleN32Imm (o : CmpI) (s : State) : Out := .next (s.laneCmpi o BitVec.ule)
/-- SETGT_I32 (R202). -/
def execSetgtI32 (o : CmpR) (s : State) : Out := .next (s.laneCmp o (fun a b => b.slt a))
/-- SETGT_I32 with an immediate (R202). -/
def execSetgtI32Imm (o : CmpI) (s : State) : Out := .next (s.laneCmpi o (fun a b => b.slt a))
/-- SETGT_N32 (R202). -/
def execSetgtN32 (o : CmpR) (s : State) : Out := .next (s.laneCmp o (fun a b => b.ult a))
/-- SETGT_N32 with an immediate (R202). -/
def execSetgtN32Imm (o : CmpI) (s : State) : Out := .next (s.laneCmpi o (fun a b => b.ult a))

/-- PMOV (R203). -/
def execPmov (o : PredU) (s : State) : Out := .next (s.lanePred o.g o.pd fun l => l.pred o.pa)
/-- PNOT (R203). -/
def execPnot (o : PredU) (s : State) : Out := .next (s.lanePred o.g o.pd fun l => !l.pred o.pa)
/-- PAND (R203). -/
def execPand (o : PredB) (s : State) : Out := .next (s.lanePred o.g o.pd fun l => l.pred o.pa && l.pred o.pb)
/-- POR (R203). -/
def execPor (o : PredB) (s : State) : Out := .next (s.lanePred o.g o.pd fun l => l.pred o.pa || l.pred o.pb)
/-- PXOR (R203). -/
def execPxor (o : PredB) (s : State) : Out := .next (s.lanePred o.g o.pd fun l => l.pred o.pa != l.pred o.pb)
/-- PTOI (R203). -/
def execPtoi (o : PredI) (s : State) : Out :=
  .next (s.laneFixed o.g [] [.v o.d] fun g x _ l => .ok { regs := [(x.phys g.budget o.d, if l.pred o.pa then 1 else 0)] })

/-- The identity that LID reads (R204): pl as it stands. -/
def lidValue (sel : LidSel) (x : Slice) (j : Fin 4) (l : Lane) : Word :=
  match sel with
  | .lane => BitVec.ofNat 32 (4 * x.num + j.val)
  | .plane => BitVec.ofNat 32 l.pl.val
  | .position => BitVec.ofNat 32 j.val

/-- LID (R204). -/
def execLid (o : LidArgs) (s : State) : Out :=
  .next (s.laneFixed o.g [] [.v o.d] fun g x j l => .ok { regs := [(x.phys g.budget o.d, lidValue o.sel x j l)] })

end Sys2Proof.Machine
end

