-- ==== Sys2Proof/Machine/Scalar.lean ====
section
/-! DEFINITION. Scalar arithmetic (R226, R227). Every instruction runs once in each slice of the gang and wraps. -/

namespace Sys2Proof.Machine

/-! Shared shapes. -/

/-- s[sd] from two registers. -/
def State.scl2 (s : State) (o : SclR) (f : Word → Word → Word) : State :=
  s.scalar [.s o.a, .s o.b] [.s o.d] fun _ x => .ok (x.setS o.d (f (x.getS o.a) (x.getS o.b))).done

/-- s[sd] from a register and the immediate. -/
def State.scl2i (s : State) (o : SclI) (f : Word → Word → Word) : State :=
  s.scalar [.s o.a] [.s o.d] fun _ x => .ok (x.setS o.d (f (x.getS o.a) o.imm)).done

/-- s[sd] from one register. -/
def State.scl1 (s : State) (o : SclU) (f : Word → Word) : State :=
  s.scalar [.s o.a] [.s o.d] fun _ x => .ok (x.setS o.d (f (x.getS o.a))).done

/-- A pair from two pairs. -/
def State.pair2 (s : State) (o : SclR) (f : DWord → DWord → DWord) : State :=
  s.scalar (sPair o.a ++ sPair o.b) (sPair o.d) fun _ x => .ok (x.setPair o.d (f (x.getPair o.a) (x.getPair o.b))).done

/-- A pair from a pair and the immediate, sign-extended (R227). -/
def State.pair2i (s : State) (o : SclI) (f : DWord → DWord → DWord) : State :=
  s.scalar (sPair o.a) (sPair o.d) fun _ x => .ok (x.setPair o.d (f (x.getPair o.a) (o.imm.signExtend 64))).done

/-- A pair shifted by s[sb], read unsigned. -/
def State.pairShift (s : State) (o : SclR) (f : DWord → Nat → DWord) : State :=
  s.scalar (sPair o.a ++ [.s o.b]) (sPair o.d) fun _ x => .ok (x.setPair o.d (f (x.getPair o.a) (x.getS o.b).toNat)).done

/-- A pair shifted by bits 5-0 of the immediate. -/
def State.pairShifti (s : State) (o : SclI) (f : DWord → Nat → DWord) : State :=
  s.scalar (sPair o.a) (sPair o.d) fun _ x => .ok (x.setPair o.d (f (x.getPair o.a) (bits o.imm 0 6))).done

/-- The conditions of R149 between two values of one width. -/
def cmpHolds {w : Nat} (cc : Cmp) (a b : BitVec w) : Bool :=
  match cc with
  | .eq => a == b | .ne => a != b | .lt => a.slt b | .ge => !a.slt b | .ltu => a.ult b | .geu => !a.ult b

def boolWord (b : Bool) : Word := if b then 1 else 0

/-! The instructions. -/

/-- SMOV.I32 (R226). -/
def execSmovI32 (o : SclU) (s : State) : Out := .next (s.scl1 o id)
/-- SMOV.I32 with an immediate (R226). -/
def execSmovI32Imm (o : SclM) (s : State) : Out := .next (s.scalar [] [.s o.d] fun _ x => .ok (x.setS o.d o.imm).done)
/-- SADD.I32 (R226). -/
def execSaddI32 (o : SclR) (s : State) : Out := .next (s.scl2 o (· + ·))
/-- SADD.I32 with an immediate (R226). -/
def execSaddI32Imm (o : SclI) (s : State) : Out := .next (s.scl2i o (· + ·))
/-- SSUB.I32 (R226). -/
def execSsubI32 (o : SclR) (s : State) : Out := .next (s.scl2 o (· - ·))
/-- SSUB.I32 with an immediate (R226). -/
def execSsubI32Imm (o : SclI) (s : State) : Out := .next (s.scl2i o (· - ·))
/-- SMUL.I32 (R226). -/
def execSmulI32 (o : SclR) (s : State) : Out := .next (s.scl2 o (· * ·))
/-- SMUL.I32 with an immediate (R226). -/
def execSmulI32Imm (o : SclI) (s : State) : Out := .next (s.scl2i o (· * ·))
/-- SMULHI.I32 (R226). -/
def execSmulhiI32 (o : SclR) (s : State) : Out := .next (s.scl2 o mulhiS)
/-- SMULHI.I32 with an immediate (R226). -/
def execSmulhiI32Imm (o : SclI) (s : State) : Out := .next (s.scl2i o mulhiS)
/-- SMULHI.N32 (R226). -/
def execSmulhiN32 (o : SclR) (s : State) : Out := .next (s.scl2 o mulhiU)
/-- SMULHI.N32 with an immediate (R226). -/
def execSmulhiN32Imm (o : SclI) (s : State) : Out := .next (s.scl2i o mulhiU)
/-- SMIN.I32 (R226). -/
def execSminI32 (o : SclR) (s : State) : Out := .next (s.scl2 o minS)
/-- SMIN.I32 with an immediate (R226). -/
def execSminI32Imm (o : SclI) (s : State) : Out := .next (s.scl2i o minS)
/-- SMAX.I32 (R226). -/
def execSmaxI32 (o : SclR) (s : State) : Out := .next (s.scl2 o maxS)
/-- SMAX.I32 with an immediate (R226). -/
def execSmaxI32Imm (o : SclI) (s : State) : Out := .next (s.scl2i o maxS)
/-- SSHL (R226). -/
def execSshl (o : SclR) (s : State) : Out := .next (s.scl2 o shlW)
/-- SSHL with an immediate (R226). -/
def execSshlImm (o : SclI) (s : State) : Out := .next (s.scl2i o shlW)
/-- SSHR.N32 (R226). -/
def execSshrN32 (o : SclR) (s : State) : Out := .next (s.scl2 o shrW)
/-- SSHR.N32 with an immediate (R226). -/
def execSshrN32Imm (o : SclI) (s : State) : Out := .next (s.scl2i o shrW)
/-- SSHR.I32 (R226). -/
def execSshrI32 (o : SclR) (s : State) : Out := .next (s.scl2 o sarW)
/-- SSHR.I32 with an immediate (R226). -/
def execSshrI32Imm (o : SclI) (s : State) : Out := .next (s.scl2i o sarW)
/-- SAND (R226). -/
def execSand (o : SclR) (s : State) : Out := .next (s.scl2 o (· &&& ·))
/-- SAND with an immediate (R226). -/
def execSandImm (o : SclI) (s : State) : Out := .next (s.scl2i o (· &&& ·))
/-- SOR (R226). -/
def execSor (o : SclR) (s : State) : Out := .next (s.scl2 o (· ||| ·))
/-- SOR with an immediate (R226). -/
def execSorImm (o : SclI) (s : State) : Out := .next (s.scl2i o (· ||| ·))
/-- SXOR (R226). -/
def execSxor (o : SclR) (s : State) : Out := .next (s.scl2 o (· ^^^ ·))
/-- SXOR with an immediate (R226). -/
def execSxorImm (o : SclI) (s : State) : Out := .next (s.scl2i o (· ^^^ ·))
/-- SANDN (R226). -/
def execSandn (o : SclR) (s : State) : Out := .next (s.scl2 o (fun a b => a &&& ~~~ b))
/-- SANDN with an immediate (R226). -/
def execSandnImm (o : SclI) (s : State) : Out := .next (s.scl2i o (fun a b => a &&& ~~~ b))
/-- SMIN.N32 (R226). -/
def execSminN32 (o : SclR) (s : State) : Out := .next (s.scl2 o minU)
/-- SMIN.N32 with an immediate (R226). -/
def execSminN32Imm (o : SclI) (s : State) : Out := .next (s.scl2i o minU)
/-- SMAX.N32 (R226). -/
def execSmaxN32 (o : SclR) (s : State) : Out := .next (s.scl2 o maxU)
/-- SMAX.N32 with an immediate (R226). -/
def execSmaxN32Imm (o : SclI) (s : State) : Out := .next (s.scl2i o maxU)
/-- SPOPC (R226). -/
def execSpopc (o : SclU) (s : State) : Out := .next (s.scl1 o popcW)
/-- SCLZ (R226). -/
def execSclz (o : SclU) (s : State) : Out := .next (s.scl1 o clzW)
/-- SCMP.I32 (R226). -/
def execScmpI32 (o : ScmpR) (s : State) : Out :=
  .next (s.scalar [.s o.a, .s o.b] [.s o.d] fun _ x => .ok (x.setS o.d (boolWord (cmpHolds o.cc (x.getS o.a) (x.getS o.b)))).done)
/-- SCMP.I32 with an immediate (R226). -/
def execScmpI32Imm (o : ScmpI) (s : State) : Out :=
  .next (s.scalar [.s o.a] [.s o.d] fun _ x => .ok (x.setS o.d (boolWord (cmpHolds o.cc (x.getS o.a) o.imm))).done)

/-- SMOV.I64 (R227). -/
def execSmovI64 (o : SclU) (s : State) : Out :=
  .next (s.scalar (sPair o.a) (sPair o.d) fun _ x => .ok (x.setPair o.d (x.getPair o.a)).done)
/-- SMOV.I64 with an immediate, sign-extended (R227). -/
def execSmovI64Imm (o : SclM) (s : State) : Out :=
  .next (s.scalar [] (sPair o.d) fun _ x => .ok (x.setPair o.d (o.imm.signExtend 64)).done)
/-- SADD.I64 (R227). -/
def execSaddI64 (o : SclR) (s : State) : Out := .next (s.pair2 o (· + ·))
/-- SADD.I64 with an immediate (R227). -/
def execSaddI64Imm (o : SclI) (s : State) : Out := .next (s.pair2i o (· + ·))
/-- SSUB.I64 (R227). -/
def execSsubI64 (o : SclR) (s : State) : Out := .next (s.pair2 o (· - ·))
/-- SSUB.I64 with an immediate (R227). -/
def execSsubI64Imm (o : SclI) (s : State) : Out := .next (s.pair2i o (· - ·))
/-- SMUL.I64 (R227). -/
def execSmulI64 (o : SclR) (s : State) : Out := .next (s.pair2 o (· * ·))
/-- SMUL.I64 with an immediate (R227). -/
def execSmulI64Imm (o : SclI) (s : State) : Out := .next (s.pair2i o (· * ·))
/-- SSHL.N64 (R227). -/
def execSshlN64 (o : SclR) (s : State) : Out := .next (s.pairShift o (· <<< ·))
/-- SSHL.N64 with an immediate (R227). -/
def execSshlN64Imm (o : SclI) (s : State) : Out := .next (s.pairShifti o (· <<< ·))
/-- SSHR.N64 (R227). -/
def execSshrN64 (o : SclR) (s : State) : Out := .next (s.pairShift o (· >>> ·))
/-- SSHR.N64 with an immediate (R227). -/
def execSshrN64Imm (o : SclI) (s : State) : Out := .next (s.pairShifti o (· >>> ·))
/-- SCMP.I64 (R227): sd is one register. -/
def execScmpI64 (o : ScmpR) (s : State) : Out :=
  .next (s.scalar (sPair o.a ++ sPair o.b) [.s o.d] fun _ x =>
    .ok (x.setS o.d (boolWord (cmpHolds o.cc (x.getPair o.a) (x.getPair o.b)))).done)

end Sys2Proof.Machine
end

