-- ==== Sys2Proof/Machine/Mem.lean ====
section
/-! DEFINITION. Loads, stores, atomics and compare-and-swaps of lanes and slices (R272 to R281), and DEPOSIT (R298). An
instruction checks and translates its accesses at issue and leaves them to be performed; a result reaches its register when
its access has been performed (R255, R264, R275). -/

namespace Sys2Proof.Machine

/-! The poison that an atomic consumes at issue (R276). -/

/-- The poison that a read of n bytes at a place would find once the group's earlier accesses have been performed (log 61). -/
def State.findsPoison (s : State) (t : Team) (g : Group) (x : Spot) (n : Nat) : Bool :=
  let s1 := s.settle t.uid g.num settleFuel
  match s1.team? t.uid with
  | none => false
  | some t1 => anyPoison (s1.readSpot t1 ((t1.group? g.num).getD g) n x)

/-- The fault of an access that consumes the poison of the granule at an address. -/
def memPoison (a : DWord) : FaultInfo := { cls := .poison, reason := 2, detail := BitVec.ofNat 64 (a.toNat / 32 * 32) }

/-- The bytes of a store: the low bytes of its data register, with its poison (R273, R276). -/
def storeBytes (t : ETy) (v : Nat) (p : Bool) : List (Byte × Bool) := (toLE t.bytes v).map fun b => (b, p)

/-! Lane accesses. -/

/-- Where a lane's access of n bytes at address a leads, after the checks of R274. -/
def State.laneSpot (s : State) (t : Team) (g : Group) (acc : Access) (a : DWord) (n : Nat) : Except FaultInfo Spot :=
  match s.locate t g true acc a n with
  | .fault f => .error f
  | .park f => .error (f.info a)
  | .place x => .ok x

/-- The physical registers of a result of type t in window register d of a lane. -/
def laneDst (g : Group) (x : Slice) (t : ETy) (d : LReg) (j : Fin 4) : List RegWrite :=
  let w := fun (k : LReg) => RegWrite.lane x.num j.val (x.phys g.budget k) 0 false
  if t.is64 then [w d, w (up d)] else [w d]

/-- LD (R277). -/
def execLd (o : LdArgs) (s : State) : Out :=
  .next (s.laneAccess o.g (vPair o.a) (vRegs o.t o.d) o.ord fun s t g x j l =>
    match s.laneSpot t g .read (x.lanePair g.budget o.a l) o.t.bytes with
    | .error f => .error f
    | .ok p => .ok (s, some { spot := p, ty := o.t, act := .load, dst := laneDst g x o.t o.d j }))

/-- ST (R277). -/
def execSt (o : StArgs) (s : State) : Out :=
  .next (s.laneAccessOf o.g (vPair o.a) (vPair o.a ++ vRegs o.t o.b) [] o.ord fun s t g x _ l =>
    match s.laneSpot t g .write (x.lanePair g.budget o.a l) o.t.bytes with
    | .error f => .error f
    | .ok p =>
      let bs := storeBytes o.t (x.laneRaw g.budget o.t o.b l) (x.lanePoison g.budget (vRegs o.t o.b) l)
      .ok (s, some { spot := p, ty := o.t, act := .store bs, dst := [] }))

/-- A read-modify-write of a lane. -/
def State.laneRmw (s : State) (t : Team) (g : Group) (x : Slice) (j : Fin 4) (l : Lane) (ty : ETy) (d a : LReg) (act : MemAct) :
    Except FaultInfo (State × Option Part) :=
  let at' := x.lanePair g.budget a l
  match s.laneSpot t g .write at' ty.bytes with
  | .error e => .error e
  | .ok p =>
    if s.findsPoison t g p ty.bytes then .error (memPoison at')
    else .ok (s, some { spot := p, ty := ty, act := act, dst := laneDst g x ty d j })

/-- ATOM (R279, R280): rounding is read at issue. -/
def execAtom (o : AtomArgs) (s : State) : Out :=
  .next (s.laneAccess o.g (vPair o.a ++ vRegs o.t o.b) (vRegs o.t o.d) o.ord fun s t g x j l =>
    s.laneRmw t g x j l o.t o.d o.a (.atom o.op (effRm o.rm g.mode) (x.laneRaw g.budget o.t o.b l)))

/-- CAS (R281). -/
def execCas (o : CasArgs) (s : State) : Out :=
  .next (s.laneAccess o.g (vPair o.a ++ vRegs o.t o.b ++ vRegs o.t o.c) (vRegs o.t o.d) o.ord fun s t g x j l =>
    s.laneRmw t g x j l o.t o.d o.a (.cas (x.laneRaw g.budget o.t o.b l) (x.laneRaw g.budget o.t o.c l)))

/-- DEPOSIT (R298): a record of the launch joins the die's curd unit while it has room. -/
def execDeposit (o : DepositArgs) (s : State) : Out :=
  .next (s.laneAccess o.g (.v o.a :: vRun o.b 4) [] .relaxed fun s t g x _ l =>
    let r := fun (i : Nat) => l.get (x.phys g.budget (Fin.ofNat 64 (o.b.val + i)))
    if (s.die t.die.val).curd.length ≥ Config.curdRecords then .error { cls := .curdOverflow }
    else
      let c : Curd := { launch := t.launch, key := BitVec.ofNat 16 (l.get (x.phys g.budget o.a)).toNat,
                        payload := #v[r 0, r 1, r 2, r 3] }
      .ok (s.updDie t.die.val fun d => { d with curd := d.curd ++ [c] }, none))

/-! Scalar accesses. -/

/-- The scalar registers of a result of type t in s[d] of slice n (R273). -/
def scalarDst (n : Nat) (t : ETy) (d : SReg) : List RegWrite :=
  if t.is64 then [.scalar n d 0 false, .scalar n (up d) 0 false] else [.scalar n d 0 false]

/-- The checks of R274 for a slice's access of n bytes at address a, and what the access does at its place. -/
def State.scalarAccess (s : State) (t : Team) (g : Group) (acc : Access) (a : DWord) (n : Nat) (k : Spot → SlEnd) : SlEnd :=
  match s.locate t g false acc a n with
  | .fault f => .fault f
  | .park f => .park a.toNat f
  | .place x => k x

/-- A slice's access is on its way, and the registers of its result are marked pending (R275). -/
def State.sendAccess (s : State) (t : Team) (g : Group) (x : Slice) (ord : Order) (p : Part) (d : List Reg) : State :=
  (s.updGroup t.uid g.num (·.addAccess x ord [p])).updSlice t.uid g.num x.num (·.mark g.budget true x.rflag d)

/-- SLD (R278). -/
def execSld (o : SldArgs) (s : State) : Out :=
  .next (s.scalarEach (sPair o.a) (sRegs o.t o.d) fun s t g x =>
    s.scalarAccess t g .read (x.getPair o.a) o.t.bytes fun p =>
      .ok (s.sendAccess t g x o.ord { spot := p, ty := o.t, act := .load, dst := scalarDst x.num o.t o.d } (sRegs o.t o.d)))

/-- SST (R278). -/
def execSst (o : SstArgs) (s : State) : Out :=
  .next (s.scalarEachOf (sPair o.a) (sPair o.a ++ sRegs o.t o.b) [] fun s t g x =>
    s.scalarAccess t g .write (x.getPair o.a) o.t.bytes fun p =>
      let bs := storeBytes o.t (x.scalarRaw o.t o.b) (x.scalarPoison (sRegs o.t o.b))
      .ok (s.sendAccess t g x o.ord { spot := p, ty := o.t, act := .store bs, dst := [] } []))

/-- A read-modify-write of a slice. -/
def State.scalarRmw (s : State) (t : Team) (g : Group) (x : Slice) (ord : Order) (ty : ETy) (d a : SReg) (act : MemAct) : SlEnd :=
  s.scalarAccess t g .write (x.getPair a) ty.bytes fun p =>
    if s.findsPoison t g p ty.bytes then .fault (memPoison (x.getPair a))
    else .ok (s.sendAccess t g x ord { spot := p, ty := ty, act := act, dst := scalarDst x.num ty d } (sRegs ty d))

/-- SATOM (R279, R280). -/
def execSatom (o : SatomArgs) (s : State) : Out :=
  let rd := sPair o.a ++ sRegs o.t o.b
  .next (s.scalarEach rd (sRegs o.t o.d) fun s t g x =>
    s.scalarRmw t g x o.ord o.t o.d o.a (.atom o.op (effRm o.rm g.mode) (x.scalarRaw o.t o.b)))

/-- SCAS (R281). -/
def execScas (o : ScasArgs) (s : State) : Out :=
  let rd := sPair o.a ++ sRegs o.t o.b ++ sRegs o.t o.c
  .next (s.scalarEach rd (sRegs o.t o.d) fun s t g x =>
    s.scalarRmw t g x o.ord o.t o.d o.a (.cas (x.scalarRaw o.t o.b) (x.scalarRaw o.t o.c)))

end Sys2Proof.Machine
end

