-- ==== Sys2Proof/Machine/Sync.lean ====
section
/-! DEFINITION. Fences, path waits, value waits and barriers (R282 to R288), and the steps that end them or bring results
back: returns (R193, R257, R275), landings (R262, R263), time-outs (R287), rereads (R285), replays (R359). -/

namespace Sys2Proof.Machine

/-! Fences and waits. -/

/-- An order between what each group of the gang has done and what it does from here on. -/
def State.fenceGang (s : State) (ord : Order) (classes : BitVec 6) : State :=
  s.updTeam s.cur.team (·.mapGroups fun g => match g.inCur s.cur with
    | [] => g
    | x :: _ => g.addFence (g.gangMask s.cur.gang) x ord classes false)

/-- FENCE (R267 item 4, R282): it orders accesses, and holds nothing. -/
def execFence (o : FenceArgs) (s : State) : Out :=
  .next ((s.fenceGang o.ord o.classes).scalar [] [] fun _ x => .ok x.done)

/-- Poison in the registers of a group's wait is a precise trap of its slice (R361). -/
def State.unpoisoned (s : State) (rd : List Reg) (k : State → State) : State :=
  let bad := (s.members.filter fun m => m.2.scalarPoison rd).map fun m => (m.2, mkRec m.1 m.2 0 { cls := .poison, reason := 1 })
  if bad.isEmpty then k s else s.preciseTraps bad

/-- WAITP (R184, R283), a trap point. -/
def execWaitp (o : WaitpArgs) (s : State) : Out :=
  .next (s.perGroup fun s => s.checked [.s o.a] [] fun s => s.atTrapPoint fun s => s.unpoisoned [.s o.a] fun s =>
    let s1 := s.mapGang fun _ x => { x with hold := .path o.path (x.getS o.a).toNat }
    let s2 := s.gangGroups.foldl (fun (t : State) n =>
      match t.group? s.cur.team n with
      | none => t
      | some g => if g.readyPathGangs.contains s.cur.gang then t.endWaitp s.cur.team n s.cur.gang else t) s1
    s2.rendezvous s.cur.team)

/-- The condition of a value wait on the value v (R284). -/
def waitHolds (o : WaitvmArgs) (masked : Bool) (x : Slice) (v : Nat) : Bool :=
  let m := if masked then v &&& x.scalarRaw o.t o.c else v
  if o.t.is64 then cmpHolds o.cc (BitVec.ofNat 64 m) (BitVec.ofNat 64 (x.scalarRaw o.t o.b))
  else cmpHolds o.cc (BitVec.ofNat 32 m) (BitVec.ofNat 32 (x.scalarRaw o.t o.b))

/-- A value written to scalar register d (R273). -/
def Slice.setRaw (x : Slice) (t : ETy) (d : SReg) (v : Nat) : Slice :=
  let r := regOf t v
  if t.is64 then (x.setS d r.1).setS (up d) r.2 else x.setS d r.1

/-- A read of a value wait, when older accesses of the group allow it (R267). -/
def State.mayRead (s : State) (t : Team) (g : Group) (x : Slice) (n : Nat) (p : Spot) : Bool :=
  !s.blocked t g (g.priorTo (g.gangMask x.gang)) { slice := x.num, cls := 0, write := false, spans := [s.span t n p] }

/-- One read of a slice's value wait (R284, R285): satisfied, waiting, parked or faulting. -/
def State.waitRead (s : State) (o : WaitvmArgs) (masked : Bool) (t : Team) (g : Group) (x : Slice) : SlEnd :=
  s.scalarAccess t g .read (x.getPair o.a) o.t.bytes fun p =>
    if !s.mayRead t g x o.t.bytes p then .wait (.value masked o)
    else
      let s1 := s.visit t.die.val p
      let bs := s1.readSpot t g o.t.bytes p
      if anyPoison bs then .fault (memPoison (x.getPair o.a))
      else if waitHolds o masked x (valueOf bs) then .ok (s1.updSlice t.uid g.num x.num (·.setRaw o.t o.d (valueOf bs)))
      else .waits s1 (.value masked o)

/-- Registers that a value wait reads. -/
def waitReads (o : WaitvmArgs) (masked : Bool) : List Reg :=
  sPair o.a ++ sRegs o.t o.b ++ (if masked then sRegs o.t o.c else [])

/-- A value wait of a gang of one group (R184, R284), a trap point. -/
def State.valueWait (s : State) (o : WaitvmArgs) (masked : Bool) : State :=
  s.checked (waitReads o masked) (sRegs o.t o.d) fun s => s.atTrapPoint fun s =>
    s.scalarEach (waitReads o masked) (sRegs o.t o.d) fun s t g x => s.waitRead o masked t g x

/-- WAITV (R284). -/
def execWaitv (o : WaitvArgs) (s : State) : Out :=
  .next (s.perGroup (·.valueWait
    { t := o.t, ord := o.ord, scope := o.scope, cc := o.cc, d := o.d, a := o.a, b := o.b, c := 0 } false))

/-- WAITVM (R163, R284): a Jenben 5 die does not have it. -/
def execWaitvm (o : WaitvmArgs) (s : State) : Out :=
  .next (s.onlyJ6 fun s => s.perGroup (·.valueWait o true))

/-- The faults of a BAR at its issue (R287): the count, the phase's count, the barrier of the group's waiting slices. -/
def Team.barFault (t : Team) (o : BarArgs) (g : Group) (gang : Nat) : Bool :=
  let b := t.barriers[o.barrier]
  decide (o.count.val + 1 > t.groups.length) || (b.count != 0 && b.count != o.count.val + 1) ||
  g.live.any fun y => y.gang != gang && match y.atBarrier with
    | some p => p.barrier != o.barrier || p.count != o.count
    | none => false

/-- BAR (R184, R286, R287), a trap point. -/
def execBar (o : BarArgs) (s : State) : Out :=
  .next (s.perGroup fun s => s.checked [] [.s o.d] fun s => s.atTrapPoint fun s =>
    match s.team? s.cur.team with
    | none => s
    | some t =>
      if (t.members s.cur.gang).any fun m => t.barFault o m.1 s.cur.gang then
        s.raiseGang 0 { cls := .barrier, detail := BitVec.ofNat 64 o.barrier.val }
      else (s.mapGang fun _ x => { x with hold := .barrier o }).rendezvous t.uid)

/-! Steps of the memory paths. -/

/-- VARIABLE_LATENCY_RESULT (R193). -/
def execVariableLatencyResult (o : OpRef) (s : State) : Out :=
  .next (match s.opAt o.team o.group o.op with
    | none => s
    | some (t, _, p) =>
      match p.job with
      | .result _ =>
        if t.frozen || p.returned then s
        else ((s.updGroup o.team o.group (·.returnOp o.op)).afterReturn o.team o.group).rendezvous o.team
      | _ => s)

/-- A response to a team that a reset has removed is discarded and counted, by its die when the die has been reset since
(R381), else by its partition when the partition has (R81). -/
def State.discardOrphan (s : State) (o : PartRef) : State :=
  match s.orphans.find? fun x => x.team == o.team && x.group == o.group && x.op == o.op with
  | none => s
  | some x =>
    let s1 := { s with orphans := s.orphans.erase x }
    if (s.die x.die.val).inc ≠ x.inc then s1.updDie x.die.val fun d => { d with cStale := d.cStale + 1 }
    else if (s.part x.partition.val).epoch ≠ x.epoch then s1.updPart x.partition.val fun p => { p with cEpoch := p.cEpoch + 1 }
    else s1

/-- MEMORY_ACCESS_RETURN (R255, R264, R275): access pick of an operation is performed. -/
def execMemoryAccessReturn (o : PartRef) (s : State) : Out :=
  .next (match s.team? o.team with
    | none => s.discardOrphan o
    | some t => if t.frozen then s else (s.movePart o.team o.group o.op o.pick).rendezvous o.team)

/-- COPY_RETURN (R256, R257, R259, R260, R291): an engine makes a movement of a copy, gather, expansion or put source. -/
def execCopyReturn (o : PartRef) (s : State) : Out := .next ((s.engineOp o.team o.group o.op o.pick).rendezvous o.team)

/-- The team whose operation a landing is may go on. -/
def State.landed (s : State) (x : Landing) : State := s.rendezvous x.fromTeam

/-- RCOPY_LANDING (R262): a run of granules of a remote copy lands. -/
def execRcopyLanding (o : LandingArgs) (s : State) : Out :=
  .next (match s.landing? o.landing with
    | none => s
    | some x => if x.put || o.granules = 0 then s else (s.landRun x o.start o.granules).landed x)

/-- PUT_LANDING (R263, R297, R376): bytes of a put land, or its counter rises. -/
def execPutLanding (o : LandingArgs) (s : State) : Out :=
  .next (match s.landing? o.landing with
    | none => s
    | some x => if !x.put || x.held then s else (s.landPut x o.start o.granules).landed x)

/-- HELD_PUT_DELIVERY (R376, R379): a put that was held for a saved team lands once that runs again. -/
def execHeldPutDelivery (o : LandingArgs) (s : State) : Out :=
  .next (match s.landing? o.landing with
    | none => s
    | some x =>
      if !x.held || (match x.team with | some uid => s.saved uid | none => false) then s
      else (s.landPut { x with held := false } o.start o.granules).landed x)

/-- Time-outs of a team are suspended while a slice is held or a group drained (R366, R368). -/
def Team.suspended (t : Team) : Bool :=
  t.frozen || t.groups.any fun g => g.drained || g.slices.any fun x => x.dbg != .none

/-- BARRIER_TIMEOUT (R287): the arrived groups leave with 1, and their accesses are ordered as by FENCE.AR.GRP (R288). When the
time has passed is the agenda's choice (log 1). -/
def execBarrierTimeout (o : BarrierRef) (s : State) : Out :=
  .next (match s.team? o.team with
    | none => s
    | some t =>
      let b := t.barriers[o.barrier]
      if b.count = 0 || b.timeout = 0 || b.complete || t.suspended then s
      else
        let fence := fun (g : Group) => match g.live.head? with
          | some x => if b.arrived.contains g.num then g.addFence g.liveMask x .ar allClasses false else g
          | none => g
        (s.updTeam o.team fun t => (t.mapGroups fence).endBarrier o.barrier 1).rendezvous o.team)

/-- A slice waits for a value. -/
def Slice.waitsValue (x : Slice) : Option (Bool × WaitvmArgs) :=
  match x.hold with
  | .value m o => some (m, o)
  | _ => none

/-- The gang stands in a value wait: some slice waits for its value. -/
def Team.gangWait (t : Team) (gang : Nat) : Option (Bool × WaitvmArgs) :=
  let ms := t.members gang
  if t.frozen || ms.any (·.1.drained) then none else ms.findSome? fun m => m.2.waitsValue

/-- WAITV_REREAD (R285): the slices of a gang that wait for a value read again. -/
def execWaitvReread (o : GangRef) (s : State) : Out :=
  .next (match s.team? o.team with
    | none => s
    | some t =>
      match t.gangWait o.gang with
      | none => s
      | some w =>
        let s1 := { s with cur := { team := o.team, gang := o.gang } }
        let s2 := s1.mapGang fun _ x => if x.waitsValue.isSome then { x with hold := .none, asked := false } else x
        ({ s2.valueWait w.2 w.1 with cur := s.cur }).rendezvous o.team)

/-- The read of a slice's value wait goes out to another unit of the package (R285, R376). -/
def State.askWait (s : State) (uid n k : Nat) : State :=
  match s.team? uid with
  | none => s
  | some t =>
    match t.group? n with
    | none => s
    | some g =>
      match g.slice? k with
      | none => s
      | some x =>
        match x.waitsValue with
        | none => s
        | some w =>
          match s.locate t g false .read (x.getPair w.2.a) w.2.t.bytes with
          | .place p =>
            if t.frozen || x.asked || (p.server t).isNone || !s.mayRead t g x w.2.t.bytes p || s.outstanding t.die t.core ≥ 256 then s
            else s.updSlice uid n k fun y => { y with asked := true }
          | _ => s

/-! Replays of parked accesses (R359). -/

/-- An address lies in a range. -/
def inRange (r : Fin 16 × Nat × Nat) (a : DWord) : Bool := decide (r.2.1 ≤ a.toNat) && decide (a.toNat < r.2.1 + r.2.2)

/-- The team has an access parked in a range. -/
def Team.parkedIn (t : Team) (r : Fin 16 × Nat × Nat) : Bool :=
  t.partition == r.1 && t.groups.any fun g =>
    g.slices.any (fun x => match x.hold with
      | .parked a => inRange r a
      | _ => false) ||
    g.ops.any fun o => match o.parked with
      | some a => inRange r a
      | none => false

/-- A range of a partition's window has been served: the accesses parked in it may replay (R113, R119, R359). -/
def State.serve (s : State) (r : Fin 16 × Nat × Nat) : State :=
  if s.teams.any (·.parkedIn r) then { s with replays := s.replays ++ [r] } else s

/-- The accesses of a group that are parked in a range go on. -/
def Group.unpark (g : Group) (r : Fin 16 × Nat × Nat) : Group :=
  { g with
    slices := g.slices.map fun x => match x.hold with
      | .parked a => if inRange r a then x.again else x
      | _ => x
    ops := g.ops.map fun o => match o.parked with
      | some a => if inRange r a then { o with parked := none } else o
      | none => o }

/-- PARKED_ACCESS_REPLAY (R359): the accesses parked in the served range that covers the address replay (log 33); those of a
team whose clock is stopped replay later. -/
def execParkedAccessReplay (o : VaRef) (s : State) : Out :=
  .next (match s.replays.find? fun r => r.1 == o.partition && inRange r o.va with
    | none => s
    | some r =>
      let s1 := { s with teams := s.teams.map fun t => if t.partition == r.1 && !t.frozen then t.mapGroups (·.unpark r) else t }
      if s1.teams.any (·.parkedIn r) then s1 else { s1 with replays := s1.replays.filter (· != r) })

end Sys2Proof.Machine
end

