-- ==== Sys2Proof/Machine/Copy.lean ====
section
/-! DEFINITION. The issue of copies, gathers, expansions, streams, remote copies and puts (R289 to R297, R319, R320), and
RELAUNCH (R299). What an engine then does stands in Engines.lean and Matrix.lean. -/

namespace Sys2Proof.Machine

/-! Checks at issue (R289). -/

def copyErr (r : Nat) : SlEnd := .fault { cls := .copyOperand, reason := r }

/-- A generic address in the shared or scratchpad aperture. -/
def onChip (a : DWord) : Bool :=
  match (spaceOf a).1 with
  | .shared | .scratch => true
  | _ => false

def inShared (a : DWord) : Bool :=
  match (spaceOf a).1 with
  | .shared => true
  | _ => false

def inGlobal (a : DWord) : Bool :=
  match (spaceOf a).1 with
  | .global => true
  | _ => false

/-- n bytes from an on-chip address lie within its aperture's bound. -/
def State.inBound (s : State) (t : Team) (a : DWord) (n : Nat) : Bool := decide ((spaceOf a).2 + n ≤ s.bound t (spaceOf a).1)

/-- Orders 2 to 5 of R289, each as a condition that fails. -/
def operandErr (length align space range : Bool) : Option SlEnd :=
  if length then some (copyErr 1) else if align then some (copyErr 2) else if space then some (copyErr 3)
  else if range then some (copyErr 4) else none

/-- An operation joins its path, or its slice waits while the path's counter is full (R257). -/
def State.startOp (s : State) (t : Team) (g : Group) (x : Slice) (p : Path) (job : Job) (returned : Bool) : SlEnd :=
  if g.counter p ≥ 63 then .wait (.pathFull p)
  else
    .ok (s.updGroup t.uid g.num fun h =>
      let h1 := h.addOp x job (some p) false
      if returned then (h1.updOp h.nextOp fun o => { o with returned := true }).retire else h1)

/-- A read at issue in a class: it waits while R267 orders older accesses before it. -/
def State.issueRead (s : State) (t : Team) (g : Group) (x : Slice) (cls : Nat) (spans : List Span) (k : SlEnd) : SlEnd :=
  if s.blocked t g (g.priorTo (g.gangMask x.gang)) { slice := x.num, cls := cls, write := false, spans := spans } then
    .wait (.order (some cls))
  else k

/-! Copies. -/

/-- CPIN and CPOUT (R290). -/
def State.copyIssue (s : State) (o : SclR) (out : Bool) : State :=
  s.scalarEach (sPair o.d ++ sPair o.a ++ [.s o.b]) [] fun s t g x =>
    let j : CopyJob := { out := out, dst := x.getPair o.d, src := x.getPair o.a, len := (x.getS o.b).toNat }
    match operandErr (decide (j.len > 2 ^ 28) || j.len % 4 != 0) (j.dst.toNat % 4 != 0 || j.src.toNat % 4 != 0)
        (!onChip j.chip || !inGlobal j.main) (!s.inBound t j.chip j.len) with
    | some e => e
    | none => s.startOp t g x (if out then .copyOut else .copyIn) (.copy j) (j.len == 0)

/-- CPIN (R290). -/
def execCpin (o : SclR) (s : State) : Out := .next (s.copyIssue o false)
/-- CPOUT (R290). -/
def execCpout (o : SclR) (s : State) : Out := .next (s.copyIssue o true)

/-- GATHER (R292). -/
def execGather (o : GatherArgs) (s : State) : Out :=
  .next (s.scalarEach (sPair o.d ++ sPair o.a ++ sPair o.b ++ sRun o.c 3) [] fun s t g x =>
    let w := fun (i : Nat) => (x.getS (Fin.ofNat 64 (o.c.val + i))).toNat
    let j : GatherJob := { dst := x.getPair o.d, src := x.getPair o.a, index := x.getPair o.b, rows := w 0, rowLen := w 1, stride := w 2 }
    match operandErr (j.rows == 0 || decide (j.rows > 65536) || j.rowLen == 0 || decide (j.rowLen > 65536) || j.rowLen % 4 != 0 || j.stride % 4 != 0)
        (j.dst.toNat % 4 != 0 || j.src.toNat % 4 != 0 || j.index.toNat % 4 != 0)
        (!onChip j.dst || !inGlobal j.src || !inShared j.index)
        (!s.inBound t j.dst (j.rows * j.rowLen) || !s.inBound t j.index (4 * j.rows)) with
    | some e => e
    | none => s.startOp t g x .gather (.gather j) false)

/-- XPAND (R293): rounding, saturation and flushing are read at issue. -/
def execXpand (o : XpandArgs) (s : State) : Out :=
  .next (s.scalarEach (sPair o.d ++ sPair o.a ++ [.s o.b] ++ sPair o.c) [] fun s t g x =>
    let j : XpandJob :=
      { t := o.t, rm := effRm o.rm g.mode, sat := o.sat || modeSat g.mode, ftz := flushes o.t g.mode, dst := x.getPair o.d,
        src := x.getPair o.a, tile := (x.getS o.b).toNat, scales := x.getPair o.c }
    match operandErr false (j.dst.toNat % 32 != 0 || j.src.toNat % 8 != 0) (!onChip j.dst || !inGlobal j.src)
        (!s.inBound t j.dst (16384 * o.t.bytes)) with
    | some e => e
    | none => s.startOp t g x .copyIn (.xpand j) false)

/-! Streams. -/

/-- A stream's descriptor (R319). -/
def streamOf (a : DWord) (g : Group) (bs : List Byte) : Stream :=
  { addr := a, group := g.num, op := g.nextOp, region := BitVec.ofNat 64 (leAt bs 0 8), scales := BitVec.ofNat 64 (leAt bs 8 8),
    first := leAt bs 16 4, count := leAt bs 20 4, stride := leAt bs 24 4, claimed := 0, ahead := [], delivered := 0, fault := none }

/-- Reason 0x1 of R321. -/
def Stream.bad (x : Stream) (reserved : Nat) : Bool :=
  reserved != 0 || x.count == 0 || decide (x.count > 65536) || x.region.toNat % 8 != 0 || decide (2 ^ 57 ≤ x.region.toNat) ||
  x.scales.toNat % 128 != 0 || x.stride % 128 != 0

/-- Tokens that a team's launch declares (R96, R97). -/
def State.declared (s : State) (t : Team) : Nat :=
  match s.launch? t.launch with
  | some l => l.header.tokens
  | none => 0

/-- STREAM (R294, R319, R320): the descriptor binds, the team takes a token, and the stream counter rises. -/
def execStream (o : SReg) (s : State) : Out :=
  .next (s.scalarEach (sPair o) [] fun s t g x =>
    let a := x.getPair o
    match operandErr false (a.toNat % 32 != 0) (!inShared a) (!s.inBound t a 32) with
    | some e => e
    | none =>
      let bs := s.chipBytes t g a 32
      s.issueRead t g x 0 [s.chipSpan t a 32] <| match poisonStop a.toNat bs with
      | some (.fault i) => .fault i
      | _ =>
        let st := streamOf a g (bs.map (·.1))
        if st.bad (leAt (bs.map (·.1)) 28 4) then .fault { cls := .stream, reason := 1, detail := a }
        else if (t.stream? a).isSome then .fault { cls := .stream, reason := 2, detail := a }
        else if t.tokens.length ≥ s.declared t then
          .fault { cls := .powerBudget, detail := BitVec.ofNat 64 (s.declared t) }
        else
          match s.startOp t g x .stream (.stream a) false with
          | .ok s1 => .ok (s1.updTeam t.uid fun t =>
              { t with streams := t.streams ++ [st], tokens := t.tokens ++ [{ group := g.num, rflag := x.rflag, sflag := x.sflag }] })
          | e => e)

/-! Remote copies and puts. -/

/-- n bytes from an offset, in pieces that each lie in one granule; fuel bounds their number. -/
def granulePieces : Nat → Nat → Nat → Nat → List (Nat × Nat)
  | 0, _, _, _ => []
  | fuel + 1, dst, at', n =>
    if n = 0 then []
    else
      let k := min n (32 - (dst + at') % 32)
      (at', k) :: granulePieces fuel dst (at' + k) (n - k)

/-- All that an operation's landing still writes. -/
def State.landingAll (s : State) (a : Op) (l : Landing) : List Span :=
  s.landingSpans l ++ match a.job with
    | .rcopy j => if a.returned then [] else j.left.map fun p => s.landingSpan l (j.dst + p.1) p.2
    | _ => []

/-- Landings of the group's older operations that come before a new one: all of them when it is a release, else those with a
common byte, and those that a fence orders before it (R262, R263, R267). -/
def State.landsAfter (s : State) (t : Team) (g : Group) (x : Slice) (y : Landing) (dst n : Nat) : List Nat :=
  let prior := g.priorTo (g.gangMask x.gang)
  let w : Want := { slice := x.num, cls := 2, write := true, spans := [s.landingSpan y dst n, s.landingSpan y y.object y.objectBytes] }
  prior.filterMap fun k =>
    (g.op? k).bind fun a => (a.landing.bind s.landing?).bind fun l =>
      if y.rel || spansMeet (s.landingAll a l) w.spans || prior.any (fun f => match g.op? f with
          | some f => f.prior.contains a.id && t.fenced g w f a
          | none => false) then some l.id else none

/-- A remote copy or put starts: the operation that reads its source, and its landing (R256, R262, R263). -/
def State.send (s : State) (t : Team) (g : Group) (x : Slice) (y : Landing) (dst : Nat) (src : DWord) (len : Nat) : SlEnd :=
  let j : PutJob := { landing := s.nextId, src := src, dst := dst, left := granulePieces (len / 32 + 2) dst 0 len }
  match s.startOp t g x .copyOut (.rcopy j) false with
  | .ok s1 =>
    let z := { y with after := s.landsAfter t g x y dst len }
    .ok ({ s1 with landings := s1.landings ++ [z], nextId := s1.nextId + 1 }.updOp t.uid g.num g.nextOp fun o =>
      { o with landing := some y.id })
  | e => e

/-- A remote address of R121: reserved bits, die, offset. -/
def remoteBad (s : State) (t : Team) (a : DWord) (n : Nat) : Bool :=
  bits a 36 28 != 0 || decide (bits a 32 4 ≥ 8) || !(s.die (bits a 32 4)).live || bits a 32 4 == t.die.val ||
  decide (bits a 0 32 + n > (s.allocation t.partition.val (bits a 32 4)).2)

/-- RCOPY (R295). -/
def execRcopy (o : RputArgs) (s : State) : Out :=
  .next (s.scalarEach (sPair o.d ++ sPair o.a ++ [.s o.b] ++ sPair o.c) [] fun s t g x =>
    let dst := x.getPair o.d
    let src := x.getPair o.a
    let ob := x.getPair o.c
    let n := (x.getS o.b).toNat
    match operandErr (decide (n < 32) || decide (n > 2 ^ 24) || n % 32 != 0)
        (bits dst 0 32 % 32 != 0 || src.toNat % 32 != 0 || bits ob 0 32 % 16 != 0) (!onChip src) (!s.inBound t src n) with
    | some e => e
    | none =>
      if remoteBad s t dst n then .fault { cls := .remoteBound, detail := dst }
      else if remoteBad s t ob 16 || bits ob 32 4 != bits dst 32 4 then .fault { cls := .remoteBound, detail := ob }
      else
        s.send t g x
          { id := s.nextId, put := false, launch := t.launch, partition := t.partition, srcDie := t.die,
            dstDie := Fin.ofNat 8 (bits dst 32 4), inc := (s.die (bits dst 32 4)).inc, team := none, fromTeam := t.uid,
            fromGroup := g.num, rel := o.ord == .rel, after := [], filled := false, parts := [], object := bits ob 0 32,
            admitted := false, held := false } (bits dst 0 32) src n)

/-- Size of the target of a put address on the issuing die; none when its team is not resident there, or is being saved
(R296, R297, R376). -/
def State.putTarget (s : State) (t : Team) (a : DWord) : Option (Option Nat × Nat) :=
  if bit a 63 then
    match s.teams.find? fun y => y.launch == t.launch && y.die == t.die && y.lin == bits a 32 24 && !y.frozen with
    | some y => some (some y.uid, s.bound y .shared)
    | none => none
  else some (none, (s.allocation t.partition.val t.die.val).2)

/-- A put address in the wrong space (R297). -/
def putSpaceBad (a : DWord) : Bool := bits a 56 7 != 0 || (!bit a 63 && bits a 32 24 != 0)

/-- PUT (R296, R297). -/
def execPut (o : RputArgs) (s : State) : Out :=
  .next (s.scalarEach (sPair o.d ++ sPair o.a ++ [.s o.b] ++ sPair o.c) [] fun s t g x =>
    let dst := x.getPair o.d
    let src := x.getPair o.a
    let ob := x.getPair o.c
    let n := (x.getS o.b).toNat
    match operandErr (decide (n < 4) || decide (n > 65536) || n % 4 != 0)
        (bits dst 0 32 % 4 != 0 || src.toNat % 4 != 0 || bits ob 0 32 % 8 != 0)
        (putSpaceBad dst || putSpaceBad ob || bits dst 32 32 != bits ob 32 32 || !onChip src) (!s.inBound t src n) with
    | some e => e
    | none =>
      match s.putTarget t dst with
      | none => .fault { cls := .putTarget, detail := dst }
      | some (team, size) =>
        if bits dst 0 32 + n > size then .fault { cls := .putTarget, detail := dst }
        else if bits ob 0 32 + 8 > size then .fault { cls := .putTarget, detail := ob }
        else
          s.send t g x
            { id := s.nextId, put := true, launch := t.launch, partition := t.partition, srcDie := t.die, dstDie := t.die,
              inc := (s.die t.die.val).inc, team := team, fromTeam := t.uid, fromGroup := g.num, rel := o.ord == .rel,
              after := [], filled := false, parts := [], object := bits ob 0 32, admitted := false, held := false }
            (bits dst 0 32) src n)

/-! Relaunch. -/

/-- RELAUNCH (R299): the first packet that a launch registers stands. -/
def execRelaunch (o : SReg) (s : State) : Out :=
  .next (s.scalarEach (sPair o) [] fun s t g x =>
    let a := x.getPair o
    if a.toNat % 64 ≠ 0 then copyErr 2
    else if !inGlobal a then copyErr 3
    else
      match s.engineRead t.die.val t.partition.val a.toNat 128 with
      | .error (.fault f) => .fault f
      | .error (.park va f) => .park va f
      | .error .done => .ok s
      | .ok bs =>
        let spans := s.globalSpans t .read a.toNat 128
        s.issueRead t g x 5 spans <| match poisonStop a.toNat bs with
        | some (.fault f) => .fault f
        | _ => .ok ((s.visitSpans t.die.val spans).updLaunch t.launch fun l =>
            { l with registered := some (l.registered.getD (bs.map (·.1))) }))

end Sys2Proof.Machine
end

