-- ==== Sys2Proof/Machine/MatrixIssue.lean ====
section
/-! DEFINITION. VATSET (R302, R303), the issue of MMA, MMAS and MMV (R304, R318, R326 to R329), and the steps that end matrix
operations (R326, R328, R132). -/

namespace Sys2Proof.Machine

/-- A value of the vat register is legal for a group (R303). -/
def vatLegal (t : Team) (g : Group) (v : BitVec 16) : Bool :=
  decide (2 ≤ popCount 16 v.toNat) && decide (popCount 16 v.toNat ≤ 6) && bit v g.num && decide (v.toNat < 2 ^ t.groups.length)

/-- The value that VATSET writes in a group. -/
def Group.vatSource (g : Group) (c : Cur) (a : SReg) : BitVec 16 := BitVec.ofNat 16 (g.topValue c a).toNat

/-- VATSET (R303): a change releases the keep latch. -/
def execVatset (o : SReg) (s : State) : Out :=
  .next (match s.team? s.cur.team with
    | none => s
    | some t => s.scalarGroup [.s o] []
        (fun g x => if vatLegal t g (g.vatSource s.cur o) then .ok x.done else .error { cls := .vat, reason := 1 })
        fun g _ g1 =>
          let v := g.vatSource s.cur o
          { g1 with vat := v, keep := if v = g1.vat then g1.keep else none })

/-! Issue. -/

/-- The owning group of a group's vat (R96): the lowest listed group, or the group itself when none is listed. -/
def Team.ownerOf (t : Team) (g : Group) : Group :=
  match (vatList g.vat).head? with
  | none => g
  | some n => (t.group? n).getD g

/-- The A registers that a group's lanes hold for an instruction: none when it finds the latch full (R318, R329). -/
def matARegs (t : Team) (g : Group) (o : MatArgs) : List Reg :=
  let own := t.ownerOf g
  let ty := match own.slices.head? with
    | some x => (x.fmtb o.fb).typeA
    | none => .f16
  if own.keep.isSome || (o.kind = .mmv && own.num != g.num) then [] else o.aRegs ty

/-- Registers that a slice's issue of a matrix instruction reads (R306, R326). -/
def matReads (t : Team) (g : Group) (x : Slice) (o : MatArgs) : List Reg :=
  (if o.kind = .mmv then [] else vPair o.d) ++ matARegs t g o ++
  (if x.num = 0 ∧ (t.ownerOf g).num = g.num then sRun o.fb 4 ++ sPair o.sbm else [])

/-- Registers that it writes: those of the slots in which the group's lanes hold rows (R314, R329). -/
def matWrites (g : Group) (o : MatArgs) : List Reg :=
  if o.kind = .mmv then o.dRegs (vatList g.vat).length (32 * ((vatList g.vat).findIdx (· == g.num))) else []

/-- The instruction that a slice has issued: that of the copy of its lowest occupied plane. -/
def Slice.ownInstr (x : Slice) (i : Instr) : Instr :=
  let w := x.recWords (x.ownPlanes.headD 0)
  match decode w.1.toNat w.2.toNat with
  | .ok j => if (matArgs j).isSome then j else i
  | .error _ => i

/-- A slice enters the vat: its A registers are held, an MMV's accumulators pending (R329). -/
def Slice.enterVat (x : Slice) (t : Team) (g : Group) (o : MatArgs) (i : Instr) : Slice :=
  { (x.mark g.budget false x.sflag (matARegs t g o)).mark g.budget true x.rflag (matWrites g o) with hold := .vat (x.ownInstr i) }

/-- The issue of a matrix instruction by each group of the gang (R184, R304, R324 order 1), a trap point. -/
def State.matrixIssue (s : State) (i : Instr) (o : MatArgs) : State :=
  s.perGroup fun s =>
    match s.team? s.cur.team with
    | none => s
    | some t =>
      let bad := s.members.filterMap fun m =>
        (m.2.dependence m.1.budget (matReads t m.1 m.2 o) (matWrites m.1 o)).map fun f => (m.2, mkRec m.1 m.2 s.cur.plane f)
      if !bad.isEmpty then s.preciseTraps bad
      else s.atTrapPoint fun s =>
        let nums := s.gangGroups
        let s1 := s.updTeam t.uid (·.mapGroups fun g =>
          if nums.contains g.num then
            { g with keepSeen := (t.ownerOf g).keep.isSome,
                     slices := g.slices.map fun x => if x.inGang s.cur.gang then x.enterVat t g o i else x }
          else g)
        s1.rendezvous t.uid

/-- MMA (R326). -/
def execMma (o : MmaArgs) (s : State) : Out := .next (s.matrixIssue (.mma o) (mmaArgs o .mma))
/-- MMAS (R163, R327). -/
def execMmas (o : MmaArgs) (s : State) : Out := .next (s.onlyJ6 fun s => s.matrixIssue (.mmas o) (mmaArgs o .mmas))
/-- MMV (R328). -/
def execMmv (o : MmvArgs) (s : State) : Out := .next (s.matrixIssue (.mmv o) (mmvArgs o))

/-! Steps of the matrix units. -/

/-- ACCUMULATOR_WRITE (R326): a granule of an accumulator row is summed and written. -/
def execAccumulatorWrite (o : PartRef) (s : State) : Out :=
  .next (match (s.opAt o.team o.group o.op).map fun x => x.2.2.job with
    | some (Job.matrix _) => (s.engineOp o.team o.group o.op o.pick).rendezvous o.team
    | _ => s)
/-- TILE_DELIVERY (R320, R321, R328). -/
def execTileDelivery (o : OpRef) (s : State) : Out := .next ((s.deliver o.team o.group o.op).rendezvous o.team)
/-- LATE_SOURCE_READ (R132). -/
def execLateSourceRead (o : OpRef) (s : State) : Out := .next ((s.lateSources o.team o.group o.op).rendezvous o.team)

end Sys2Proof.Machine
end

