-- ==== Sys2Proof/Machine/Control.lean ====
section
/-! DEFINITION. Branches, calls and the register window (R228 to R232), masks, planes and issue control (R233 to R236,
R185). -/

namespace Sys2Proof.Machine

/-! Branches. -/

/-- The registers that a condition of R149 reads. -/
def braReads : BraCond → List Reg
  | .z a | .nz a | .ltz a | .gez a => [.s a]
  | .cmp _ a b => [.s a, .s b]
  | _ => []

/-- A condition of R149 in a slice. -/
def braHolds (c : BraCond) (x : Slice) : Bool :=
  match c with
  | .always => true
  | .z a => x.getS a == 0
  | .nz a => x.getS a != 0
  | .ltz a => (x.getS a).slt 0
  | .gez a => !(x.getS a).slt 0
  | .cmp k a b => cmpHolds k (x.getS a) (x.getS b)
  | .none => x.em == 0
  | .any => x.em != 0
  | .all => x.em == 0xF

/-- An offset is a clause header of the text that the issuing gang runs (R131). -/
def State.curTarget (s : State) (off : Word) : Bool :=
  match s.team? s.cur.team with
  | some t => s.isTarget t off
  | none => false

def branchFault (off : Word) : FaultInfo := { cls := .branchTarget, detail := BitVec.ofNat 64 off.toNat }

/-- BRA in a slice. -/
def State.braSlice (s : State) (o : BraArgs) (x : Slice) : Except FaultInfo Slice :=
  if braHolds o.cc x then
    if s.curTarget (x.offset + o.disp) then .ok (x.jump (x.offset + o.disp)) else .error (branchFault (x.offset + o.disp))
  else .ok x.done

/-- BRA (R178, R228): the slices that take the branch and those that do not part. -/
def execBra (o : BraArgs) (s : State) : Out :=
  let took := (s.members.filter fun m => braHolds o.cc m.2).map fun m => (m.1.num, m.2.num)
  let bad := s.scalarBad (braReads o.cc) fun _ x => s.braSlice o x
  let s1 := s.scalar (braReads o.cc) [] fun _ x => s.braSlice o x
  .next (if s.stopsWhole bad then s1
    else s1.partBy fun g x => x.inClause == false && took.contains (g.num, x.num))

/-! The register window. -/

/-- The word of lane j of slice x at logical position i, in the spill stack (R229). -/
def spillOffset (width : Nat) (x : Slice) (i : Nat) (j : Fin 4) : Nat := 16 * (i * (width / 4) + x.num) + 4 * j.val

/-- Positions from a up to, but not including, b. -/
def positions (a b : Nat) : List Nat := (List.range (b - a)).map (· + a)

/-- The dependence fault of a move of positions between registers and the spill stack, at the first position whose
register is marked (R230, R231); its detail is the position relative to the window, modulo 64 (log 24). -/
def Slice.moveFault (x : Slice) (b : Nat) (is : List Nat) : Option FaultInfo :=
  (is.find? fun i => x.marked (.v (i % b)) true || x.marked (.v (i % b)) false).map fun i =>
    { cls := .dependence, reason := if x.marked (.v (i % b)) true then 1 else 2,
      detail := BitVec.ofNat 64 ((i + 64 * (x.wb / 64 + 1) - x.wb) % 64) }

/-- lo after a slide to window base wb (R230). -/
def slidLo (g : Group) (x : Slice) (wb : Nat) : Nat := max x.lo (wb + 64 - g.budget)

/-- A slice's lanes with positions zeroed, without poison. -/
def Slice.zeroPositions (x : Slice) (b : Nat) (is : List Nat) : Slice :=
  x.mapLanes fun _ l => is.foldl (fun (l : Lane) i => l.put (i % b) 0 false) l

/-- CALL in a slice (R230). -/
def State.callSlice (s : State) (o : CallArgs) (spill : Nat) (g : Group) (x : Slice) : Except FaultInfo Slice :=
  let ret := x.offset.toNat + 8
  let target := x.offset + o.disp
  let wb := x.wb + o.w.val
  let lo := slidLo g x wb
  if ret ≥ 2 ^ 28 || !s.curTarget target then .error (branchFault target)
  else if x.lo < lo && 4 * g.width * lo > spill then
    .error { cls := .spillOverflow, detail := BitVec.ofNat 64 (4 * g.width * lo) }
  else
    match x.moveFault g.budget (positions x.lo lo ++ positions (x.wb + 64) (wb + 64)) with
    | some f => .error f
    | none =>
      let y := (x.zeroPositions g.budget (positions (x.wb + 64) (wb + 64))).setS o.d
        (BitVec.ofNat 32 (o.w.val * 2 ^ 26 + ret / 4))
      let z := { y with wb := wb, lo := lo, ie := { y.ie with valid := false } }.jump target
      .ok { z with hold := if x.lo < lo then .spilling else .none }

/-- The words that a slice's slide spills, with their poison (R229, R230). -/
def Slice.spills (x : Slice) (g : Group) (lo : Nat) : List (Nat × Word × Bool) :=
  (positions x.lo lo).flatMap fun i => lanes4.map fun j =>
    (spillOffset g.width x i j, (x.lane j).get (i % g.budget), (x.lane j).poisoned (i % g.budget))

/-- A word written to a group's spill stack. -/
def Group.pushWord (g : Group) (w : Nat × Word × Bool) : Group :=
  let bs := (toLE 4 w.2.1.toNat).map fun b => (b, w.2.2)
  { g with stack := g.stack.write w.1 (bs.map (·.1)), stackPoison := poisonUnits 4 g.stackPoison w.1 bs }

/-- Spill stack of the issuing gang's launch in bytes. -/
def State.curSpill (s : State) : Nat :=
  match s.team? s.cur.team with
  | some t => s.bound t .stack
  | none => 0

/-- Stack accesses that slices of a mask have made, or that come before them, and that are still to be performed: operation and
part. -/
def Group.stackParts (g : Group) (mask : BitVec 8) : List (Nat × Nat) :=
  (g.laneOps.filter fun o => o.after &&& mask != 0).flatMap fun o => match o.job with
    | .access _ parts _ => parts.zipIdx.filterMap fun p => match p.1.spot with
      | .chip .stack _ => some (o.id, p.2)
      | _ => none
    | _ => []

/-- The stack accesses of the issuing gang in a group that can be performed are (R232). -/
def State.forceStack (s : State) (n : Nat) : Nat → State
  | 0 => s
  | fuel + 1 =>
    match s.group? s.cur.team n with
    | none => s
    | some g =>
      match (g.stackParts (g.gangMask s.cur.gang)).find? fun p => (s.performPart s.cur.team n p.1 p.2).isSome with
      | none => s
      | some p => (s.movePart s.cur.team n p.1 p.2).forceStack n fuel

/-- What spills or fills comes after the group's older stack accesses, for which it waits (R232). -/
def State.stackFirst (s : State) (k : State → State) : State :=
  let s1 := s.gangGroups.foldl (fun (t : State) n => t.forceStack n settleFuel) s
  if s1.members.any fun m => !(m.1.stackParts (m.1.gangMask s.cur.gang)).isEmpty then
    s1.mapGang fun _ x => { x with hold := .order (some 0) }
  else k s1

/-- CALL (R230, R232): the gang issues nothing more until its spills have completed. -/
def execCall (o : CallArgs) (s : State) : Out :=
  .next (s.stackFirst fun s => s.scalarGroup [] [.s o.d] (s.callSlice o s.curSpill) fun g ok g1 =>
    (ok.flatMap fun x => x.spills g (slidLo g x (x.wb + o.w.val))).foldl Group.pushWord g1)

/-- Position i of a slice filled from the group's spill stack (R229, R231). -/
def Slice.fillPosition (x : Slice) (g : Group) (i : Nat) : Slice :=
  x.mapLanes fun j l =>
    let a := spillOffset g.width x i j
    let bs := withUnits 4 g.stackPoison a (g.stack.read a 4)
    l.put (i % g.budget) (BitVec.ofNat 32 (fromLE (bs.map (·.1)))) (bs.any (·.2))

/-- RET in a slice (R231). -/
def State.retSlice (s : State) (a : SReg) (g : Group) (x : Slice) : Except FaultInfo Slice :=
  let link := x.getS a
  let w := bits link 26 6
  let ret := BitVec.ofNat 32 (4 * bits link 0 26)
  if w > x.wb then .error { cls := .link, detail := BitVec.ofNat 64 link.toNat }
  else if !s.curTarget ret then .error (branchFault ret)
  else
    let wb := x.wb - w
    match x.moveFault g.budget (positions wb x.lo) with
    | some f => .error f
    | none =>
      let y := (positions wb x.lo).foldl (fun (y : Slice) i => y.fillPosition g i) x
      let z := { y with wb := wb, lo := min x.lo wb, ie := { y.ie with valid := false } }.jump ret
      .ok { z with hold := if wb < x.lo then .spilling else .none }

/-- RET (R178, R231, R232): slices with different return offsets part. -/
def execRet (o : SReg) (s : State) : Out :=
  .next (s.stackFirst fun s => (s.scalar [.s o] [] fun g x => s.retSlice o g x).partBy fun _ x => x.offset)

/-- SPILL_FILL_COMPLETE (R232): the spills and fills of a gang's CALL or RET have completed. -/
def execSpillFillComplete (o : GangRef) (s : State) : Out :=
  .next (s.updTeam o.team fun t =>
    if t.frozen then t
    else t.mapGang o.gang fun _ x => match x.hold with
      | .spilling => { x with hold := .none }
      | _ => x)

/-! Masks and planes. -/

/-- The predicate of each lane of a slice, complemented when neg. -/
def Slice.predMask (x : Slice) (p : PReg) (neg : Bool) : BitVec 4 := laneMask4 (lanes4.filter fun j => (x.lane j).pred p != neg)

/-- Past the instruction with a signature fold after its words (R240). -/
def Slice.doneWith (x : Slice) (folds : List Word) : Slice :=
  let y := x.foldWords
  { y with sg := folds.foldl foldSig y.sg }.advance

/-- MSPLIT (R233). -/
def execMsplit (o : MsplitArgs) (s : State) : Out :=
  .next (s.scalar [] [.s o.d] fun _ x =>
    .ok ({ x.setS o.d (x.em.zeroExtend 32) with em := x.em &&& x.predMask o.p o.neg }.doneWith [0xE1]))

/-- The low four bits of a scalar register. -/
def Slice.maskOf (x : Slice) (a : SReg) : BitVec 4 := BitVec.ofNat 4 (x.getS a).toNat

/-- MELSE (R233), a trap point (R356). -/
def execMelse (o : SReg) (s : State) : Out :=
  .next (s.checked [.s o] [] fun s => s.atTrapPoint fun s =>
    s.scalar [.s o] [] fun _ x => .ok ({ x with em := x.maskOf o &&& ~~~ x.em }.doneWith [0xE1]))

/-- An order of every class between what each slice of the gang has done itself and what it does from here on (R188). -/
def State.fenceSlices (s : State) : State :=
  s.updTeam s.cur.team (·.mapGroups fun g =>
    (g.inCur s.cur).foldl (fun (h : Group) x => h.addFence (g.gangMask s.cur.gang) x .ar allClasses true) g)

/-- JOIN (R188, R233), a trap point: it acts as FENCE.AR.GRP with every class. -/
def execJoin (o : SReg) (s : State) : Out :=
  .next (s.checked [.s o] [] fun s => s.atTrapPoint fun s => s.fenceSlices.scalar [.s o] [] fun _ x =>
    .ok ({ x with em := x.maskOf o }.doneWith [0xE1, 0xE2]))

/-- SPLANE (R234): the plane numbers take effect at the next clause start. -/
def execSplane (o : SReg) (s : State) : Out :=
  .next (s.scalar [.s o] [] fun _ x => .ok ({ x with planeNext := some (BitVec.ofNat 8 (x.getS o).toNat) }.done))

/-! Issue control. -/

/-- YIELD (R235): the gang is put off for 64 issues. -/
def execYield (s : State) : Out :=
  .next (s.scalar [] [] fun _ x => let y := x.done; .ok { y with defer := max y.defer 64 })

/-- REGANG (R184, R185), a trap point. -/
def execRegang (s : State) : Out :=
  .next (s.perGroup fun s => s.atTrapPoint fun s =>
    (s.mapGang fun _ x => { x with hold := .regang }).rendezvous s.cur.team)

/-- A slice ends (R236). -/
def Slice.exitNow (x : Slice) : Slice :=
  { x.foldWords.fresh with exited := true, inClause := false, cbuf := none }

/-- The keep latch of a group whose slices have all ended is dropped (R318). -/
def Group.dropKeep (g : Group) : Group := if g.gone then { g with keep := none } else g

/-- The oldest operation in issue order of a list. -/
def oldestOp : List Op → Option Op
  | [] => none
  | o :: r =>
    match oldestOp r with
    | some p => if p.id < o.id then some p else some o
    | none => some o

/-- Operations of a group that have returned in a fault which nothing has raised. -/
def Group.lateFaults (g : Group) : List Op := g.faulted ++ g.ops.filter fun o => o.returned && o.fault.isSome

/-- In each group of the gang the oldest operation of the gang's slices that has ended in a fault no WAITP has raised, with its
slice (R357). -/
def State.unraised (s : State) : List (Group × Slice × Op) :=
  s.gangGroups.filterMap fun n => (s.group? s.cur.team n).bind fun g =>
    (oldestOp (g.lateFaults.filter fun o => (g.inCur s.cur).any (·.num == o.slice))).bind fun o =>
      (g.slice? o.slice).map fun x => (g, x, o)

/-- The operation's fault is raised: it is raised no more. -/
def Group.dropFault (g : Group) (id : Nat) : Group :=
  { g with faulted := g.faulted.filter (·.id != id), ops := g.ops.map fun o => if o.id = id then { o with fault := none } else o }

/-- EXIT (R236), a trap point: a late fault of a slice's own operations is raised first (R357). -/
def execExit (s : State) : Out :=
  .next (s.atTrapPoint fun s =>
    let uid := s.cur.team
    let late := s.unraised
    let s1 := late.foldl (fun (t : State) m =>
      ((t.observe uid m.1.num m.2.2).updGroup uid m.1.num (·.dropFault m.2.2.id)).trapSlices uid
        (lateRec m.1 m.2.2 (m.2.2.fault.getD { cls := .poison }) m.2.1.offset) [m.2.1.num]) s
    let held := late.map fun m => m.1.num
    ((s1.mapGang fun g x => if held.contains g.num then x else x.exitNow).updTeam uid
      (·.mapGroups fun g => if (s.gangGroups).contains g.num then g.dropKeep else g)).rendezvous uid)

end Sys2Proof.Machine
end

