-- ==== Sys2Proof/Machine/System.lean ====
section
/-! DEFINITION. The mode register, identities and arguments (R237 to R239), signatures, regions and traps (R241 to R243),
debug and trace (R244, R245), and the privileged instructions (R246 to R251). -/

namespace Sys2Proof.Machine

/-! The mode register. -/

/-- SMODE.WR and SMODE.RM: f gives the new mode from the old one and the value. -/
def State.modeWrite (s : State) (a : SReg) (f : Word → Word → Word) : State :=
  s.scalarGroup [.s a] []
    (fun g x =>
      let v := g.topValue s.cur a
      if rmLegal (bits v 0 3) then .ok x.done else .error { cls := .modeValue, detail := BitVec.ofNat 64 v.toNat })
    fun g _ g1 => { g1 with mode := f g1.mode (g.topValue s.cur a) }

/-- SMODE.RD (R237). -/
def execSmodeRd (o : SReg) (s : State) : Out := .next (s.scalar [] [.s o] fun g x => .ok (x.setS o g.mode).done)
/-- SMODE.WR (R237): reserved bits are ignored. -/
def execSmodeWr (o : SReg) (s : State) : Out := .next (s.modeWrite o fun _ v => v &&& modeFields)
/-- SMODE.CLR (R237): the mode is read, then its exception flags are cleared. -/
def execSmodeClr (o : SReg) (s : State) : Out :=
  .next (s.scalarGroup [] [.s o] (fun g x => .ok (x.setS o g.mode).done)
    fun _ _ g1 => { g1 with mode := setBits g1.mode 8 5 0 })
/-- SMODE.RM (R237). -/
def execSmodeRm (o : SReg) (s : State) : Out := .next (s.modeWrite o fun m v => setBits m 0 3 (bits v 0 3))

/-! Identities and arguments. -/

/-- The identities of R238. -/
def State.sidValue (s : State) (t : Team) (l : Launch) (g : Group) (x : Slice) : SidSel → Nat
  | .slice => x.num
  | .group => g.num
  | .role => if g.consumer then 1 else 0
  | .teamLinear => t.lin
  | .teamX => t.x
  | .teamY => t.y
  | .teamZ => t.z
  | .die => t.die.val
  | .core => t.core
  | .subCore => g.place.sub.val
  | .width => g.width
  | .em => x.em.toNat
  | .partition => t.partition.val
  | .codeVersion => l.version.toNat
  | .tag => l.tag.toNat
  | .generation => Config.generation t.die.val
  | .level => s.commonLevel
  | .wb => x.wb
  | .depth => g.depth

/-- A scalar instruction whose value comes from the slice's team and launch. -/
def State.scalarOf (s : State) (d : SReg) (f : Team → Launch → Group → Slice → Word) : State :=
  match s.team? s.cur.team with
  | none => s
  | some t =>
    match s.launch? t.launch with
    | none => s
    | some l => s.scalar [] [.s d] fun g x => .ok (x.setS d (f t l g x)).done

/-- SID (R238). -/
def execSid (o : SidArgs) (s : State) : Out :=
  .next (s.scalarOf o.d fun t l g x => BitVec.ofNat 32 (s.sidValue t l g x o.sel))

/-- A word of the argument area; words that lie at or past the header's argument bytes read 0 (R239). -/
def Launch.argWord (l : Launch) (k : Fin 16) : Word := if 4 * k.val + 4 ≤ l.header.argBytes then l.args[k] else 0

/-- LDARG (R239). -/
def execLdarg (o : LdargArgs) (s : State) : Out := .next (s.scalarOf o.d fun _ l _ _ => l.argWord o.off)

/-! Signatures, regions and traps. -/

/-- SIGCHK (R241, R364): it is not folded, and leaves sg 0 whether the comparison holds or not. -/
def execSigchk (o : Word) (s : State) : Out :=
  let differ := (s.members.filter fun m => m.2.sg != o).map fun m => (m.1.num, m.2.num)
  let s1 := s.scalar [] [] fun _ x =>
    if x.sg = o then .ok { x with sg := 0 }.advance else .error { cls := .signature, detail := pairOf o x.sg }
  .next (s1.updTeam s.cur.team (·.mapGroups fun g => g.mapSlices fun x =>
    if differ.contains (g.num, x.num) then { x with sg := 0 } else x))

/-- IENTER (R242): the region starts at the header of its clause, and the replay count is 0 (R362). -/
def execIenter (s : State) : Out :=
  .next (s.scalar [] [] fun _ x =>
    let entry := match x.cbuf with
      | some b => b.base
      | none => x.offset
    .ok { x with ie := { valid := true, window := BitVec.ofNat 16 x.wb, mask := x.em, entry := entry }, replay := 0 }.done)

/-- Slices of the gang that a held program trap has stopped: all of them reached the TRAP (R369). -/
def Group.holdTrapped (g : Group) (ms : List (Nat × Nat)) : Group :=
  if g.slices.any fun x => x.dbg == .held .programTrap then
    g.mapSlices fun x => if ms.contains (g.num, x.num) && !x.exited then { x with dbg := .held .programTrap } else x
  else g

/-- TRAP (R243). -/
def execTrap (o : BitVec 16) (s : State) : Out :=
  let ms := s.members.map fun m => (m.1.num, m.2.num)
  .next ((s.scalar [] [] fun _ _ => .error { cls := .programTrap, detail := o.zeroExtend 64 }).updTeam s.cur.team
    (·.mapGroups (·.holdTrapped ms)))

/-! Debug and trace. -/

/-- Each group of the gang stops after its BRK (R244, R368). -/
def State.stopAfterBrk (s : State) (t : Team) (before : List (Group × Slice)) : List Nat → State
  | [] => s
  | n :: ns =>
    let mine := before.filter fun m => m.1.num == n
    match mine.head? with
    | none => s.stopAfterBrk t before ns
    | some m =>
      let r := { mkRec m.1 m.2 0 { cls := .debugStop, reason := 1 } with stop := m.2.offset + 4 }
      (s.stopGroup t n (mine.map (·.2.num)) r).stopAfterBrk t before ns

/-- BRK (R244): nothing while the partition's debug bit is clear; else the slices stop before the next word. -/
def execBrk (s : State) : Out :=
  let s1 := s.scalar [] [] fun _ x => .ok x.done
  .next (match s.team? s.cur.team with
    | none => s1
    | some t => if s.debugOn t.partition.val then s1.stopAfterBrk t s.members s.gangGroups else s1)

/-- MARK (R245): a trace record for each slice while the die's trace control permits it. -/
def execMark (o : Word) (s : State) : Out :=
  .next (s.scalarEach [] [] fun s t g _ =>
    if bit (s.die t.die.val).trace 0 then
      match s.launch? t.launch with
      | some l => .ok (s.trace t.die.val t.partition.val 1 g.num l.tag l.num (BitVec.ofNat 32 t.lin) (o.zeroExtend 64))
      | none => .ok s
    else .ok s)

/-! Privileged instructions. -/

/-- The privilege check, before every other of the instruction's own (R162, R165, R246). -/
def State.privileged (s : State) (k : State → State) : State :=
  match (s.team? s.cur.team).bind fun t => s.launch? t.launch with
  | none => s
  | some l => if l.privileged then k s else s.raiseGang 0 { cls := .privilege }

/-- n bytes of a descriptor at a global address, a lane-class read at issue (R248, R249): a misaligned or foreign address
is an address fault, and poison is consumed (log 26). The request that it makes comes after every older access of the group,
as behind FENCE.REL.PKG with every class, and the instruction waits for them. -/
def State.readDescriptor (s : State) (t : Team) (g : Group) (x : Slice) (a : DWord) (n : Nat) (k : State → List Byte → SlEnd) : SlEnd :=
  if a.toNat % n ≠ 0 || 2 ^ 57 ≤ a.toNat then .fault { cls := .address, detail := a }
  else
    match s.readGlobal t.die.val t.partition.val .read a.toNat n with
    | .error (va, f) => if f.parks then .park va f else .fault (f.info (BitVec.ofNat 64 va))
    | .ok bs =>
      if !t.orderFree g x none then .wait (.order none)
      else match bs.findIdx? (·.2) with
        | some i => .fault { cls := .poison, reason := 2, detail := BitVec.ofNat 64 ((a.toNat + i) / 32 * 32) }
        | none => k (s.visitSpans t.die.val (s.globalSpans t .read a.toNat n)) (bs.map (·.1))

/-- PATCHREQ (R248): the request goes to the patch engine's die. -/
def execPatchreq (o : SReg) (s : State) : Out :=
  .next (s.privileged fun s => s.scalarEach (sPair o) [] fun s t g x =>
    s.readDescriptor t g x (x.getPair o) 32 fun s bs =>
      let r : PatchReq :=
        { partition := t.partition, die := t.die.castLE (by decide), desc := x.getPair o,
          object := BitVec.ofNat 64 (leAt bs 0 8), offset := leAt bs 8 4, length := leAt bs 12 4,
          source := BitVec.ofNat 64 (leAt bs 16 8), flags := leAt bs 24 2, reserved := leAt bs 26 2 }
      let s1 := s.msg t.die.val 12
      .ok { s1 with patches := s1.patches ++ [r] })

/-- The tile of a core, when one has been made; else a tile that runs. -/
def State.tile (s : State) (d : Fin 8) (c : Nat) : Tile :=
  match s.tiles.find? fun x => x.die == d && x.core == c with
  | some x => x
  | none => { die := d, core := c, state := .open, cmds := [], reported := [], pending := false }

/-- The tile of a core changed. -/
def State.updTile (s : State) (d : Fin 8) (c : Nat) (f : Tile → Tile) : State :=
  { s with tiles := f (s.tile d c) :: s.tiles.filter fun x => !(x.die == d && x.core == c) }

/-- The completion record of a tile command, written by die d (R250). -/
def State.tileRecord (s : State) (d : Nat) (c : TileCmd) (status elapsed : Nat) (signature : Word) : State :=
  let s1 := s.tick d
  let bs := toLE 4 status ++ toLE 4 elapsed ++ toLE 4 signature.toNat ++ toLE 4 0 ++ toLE 8 (s1.die d).counter.toNat ++ toLE 8 0
  (s1.writeRecord d c.partition.val c.completion.toNat bs).1

/-- The command of a block (R249); reservedOk says that every reserved field is 0 and every field within its limits. -/
def tileCmd (t : Team) (bs : List Byte) : TileCmd :=
  let op := leAt bs 0 2
  let image := leAt bs 8 8
  let imageOk := if op = 1 ∨ op = 2 then image % 4096 = 0 ∧ image < 2 ^ 57 else image = 0
  let scanOk := if op = 3 then leAt bs 3 1 ≤ 3 ∧ 1 ≤ leAt bs 24 4 ∧ leAt bs 24 4 ≤ 10000
    else leAt bs 3 1 = 0 ∧ leAt bs 24 4 = 0 ∧ leAt bs 28 4 = 0
  { partition := t.partition, fromDie := t.die, fromCore := t.core, op := op, abort := leAt bs 3 1,
    image := BitVec.ofNat 64 image, completion := BitVec.ofNat 64 (leAt bs 16 8), duration := leAt bs 24 4,
    expected := BitVec.ofNat 32 (leAt bs 28 4),
    reservedOk := decide (1 ≤ op ∧ op ≤ 4) && decide imageOk && decide scanOk && decide (leAt bs 32 32 = 0) }

/-- A tile command joins its tile's commands; one whose die is no compute die ends at once, and the issuing die writes
its record (log 31). -/
def State.submitTile (s : State) (t : Team) (bs : List Byte) : State :=
  let c := tileCmd t bs
  if h : leAt bs 2 1 < 8 then
    (s.msg t.die.val (leAt bs 2 1)).updTile ⟨leAt bs 2 1, h⟩ (leAt bs 4 4) fun x => { x with cmds := x.cmds ++ [c] }
  else s.tileRecord t.die.val c 0x54 0 0

/-- TCLK (R249), after FENCE.REL.PKG with every class. -/
def execTclk (o : SReg) (s : State) : Out :=
  .next (s.privileged fun s => s.scalarEach (sPair o) [] fun s t g x =>
    s.readDescriptor t g x (x.getPair o) 64 fun s bs =>
      let done := leAt bs 16 8
      if done % 32 ≠ 0 || 2 ^ 57 ≤ done then .fault { cls := .address, detail := BitVec.ofNat 64 done }
      else .ok (s.submitTile t bs))

/-! System registers (R251). -/

/-- Cores of word k of the core map that a die has. -/
def mapCores (die k : Nat) : DWord :=
  BitVec.ofNat 64 (2 ^ min 64 (Config.cores die - min (Config.cores die) (64 * k)) - 1)

/-- The value of a system register of a die. -/
def State.sysRead (s : State) (d : Nat) (n : Nat) : Option DWord :=
  let x := s.die d
  if n = 0 then some (x.counter.zeroExtend 64)
  else if n = 1 then
    some (BitVec.ofNat 64 (d + 256 * Config.generation d + 65536 * s.commonLevel + 16777216 * x.revision.toNat))
  else if n = 2 then some (if x.grant then 1 else 0)
  else if n = 0x10 then some x.coreMap[0]
  else if n = 0x11 then some x.coreMap[1]
  else if n = 0x12 then some x.coreMap[2]
  else if n = 0x20 then some x.trace
  else none

/-- A write of word k of the core map: a write that would set a clear bit of a core of the die is not permitted. -/
def State.sysMap (s : State) (d k : Nat) (v : DWord) : Option State :=
  let x := s.die d
  let m := atV x.coreMap k 0
  if x.grant && (v &&& ~~~ m &&& mapCores d k) == 0 then
    some (s.updDie d fun y => { y with coreMap := updV y.coreMap k fun w => w &&& v })
  else none

/-- A write of a system register of a die, when it is permitted; bits 63 to 1 of trace control stay 0 (R8). -/
def State.sysWrite (s : State) (d n : Nat) (v : DWord) : Option State :=
  if n = 0x10 then s.sysMap d 0 v
  else if n = 0x11 then s.sysMap d 1 v
  else if n = 0x12 then s.sysMap d 2 v
  else if n = 0x20 then some (s.updDie d fun y => { y with trace := v &&& 1 })
  else none

def sysFault (n : Word) : FaultInfo := { cls := .systemRegister, detail := BitVec.ofNat 64 (bits n 0 16) }

/-- SYSRD (R251). -/
def execSysrd (o : SclU) (s : State) : Out :=
  .next (s.privileged fun s => s.scalarEach [.s o.a] (sPair o.d) fun s t g x =>
    let n := x.getS o.a
    match s.sysRead t.die.val n.toNat with
    | some v => .ok (s.updSlice t.uid g.num x.num fun y => y.setPair o.d v)
    | none => .fault (sysFault n))

/-- SYSWR (R251): s[sa] names the register, the pair s[sb] is written. -/
def execSyswr (o : SclU) (s : State) : Out :=
  .next (s.privileged fun s => s.scalarEach (.s o.d :: sPair o.a) [] fun s t _ x =>
    let n := x.getS o.d
    match s.sysWrite t.die.val n.toNat (x.getPair o.a) with
    | some s1 => .ok s1
    | none => .fault (sysFault n))

end Sys2Proof.Machine
end

