-- ==== Sys2Proof/Machine/Launch.lean ====
section
/-! DEFINITION. From the wire to a running team and back: packets at the ports (R69 to R77), installs (R31, R79), dispatch
(R36, R78), placement (R91 to R95), the end of groups, teams and launches (R236, R389 to R391), and events out (R80). -/

namespace Sys2Proof.Machine

/-! Arrival. -/

/-- The far die of a port (R406), and the far die of a queue (R75). -/
def portDie (p : Fin 18) : Nat := if p.val < 9 then 12 else 13
def queueDie (q : Nat) : Nat := if q < 8 then 12 else 13

/-- A message of the wrong length is counted at its port (R69). -/
def State.countMalformed (s : State) (p : Fin 18) : State := { s with malformed := s.malformed.set p (s.malformed[p] + 1) }
def State.countUnmatched (s : State) : State := { s with unmatched := s.unmatched + 1 }

/-- The valid access-control entry with the lowest index for a source (R71, R72). -/
def State.aclEntry (s : State) (source : Word) : Option DWord :=
  s.acl.toList.find? fun e => bit e 63 && bits e 0 32 == source.toNat

def Partition.enabled (p : Partition) : Bool := bit p.descriptor 63

/-- The entry that R72 lets a message use, and its partition. -/
def State.usable (s : State) (source : Word) : Option (DWord × Fin 16) :=
  match s.aclEntry source with
  | none => none
  | some e => if (s.part (bits e 52 4)).enabled then some (e, Fin.ofNat 16 (bits e 52 4)) else none

/-- A free value for a field of an event that no rule gives (log 34). -/
def State.freeEvent (s : State) (d p code reason : Nat) (tag : Word) : State :=
  { s with free := s.free + 1 }.eventFrom d p code reason tag (Config.eventValue s.free)

def packetTag (b : List Byte) : Word := BitVec.ofNat 32 (leAt b 4 4)

/-- LAUNCH_PACKET: orders 1 to 4 of R77, and the queue (R69, R72, R75). -/
def execLaunchPacket (o : Sys2Proof.Message) (s : State) : Out :=
  .next (
    if o.payload.length ≠ 128 then s.countMalformed o.port
    else
      match s.usable o.source with
      | none => s.countUnmatched
      | some (e, p) =>
        let q := leAt o.payload 2 1
        let install := leAt o.payload 0 2 == 2
        let tag := packetTag o.payload
        if q > 15 || !bit e (32 + q) || (install && !bit e 62) then s.freeEvent (portDie o.port) p.val 2 0x07 tag
        else
          let s1 := s.msg (portDie o.port) (queueDie q)
          if (s.part p.val).resetting then s1.freeEvent (queueDie q) p.val 2 0x0B tag
          else if (atV (s.part p.val).queues q []).length ≥ Config.queueDepth then s1.freeEvent (queueDie q) p.val 2 0x08 tag
          else
            let entry : Queued := { bytes := o.payload, install := install, aclM := bit e 62 }
            s1.updPart p.val fun x => { x with queues := updV x.queues q fun l => l ++ [entry] })

/-! Packets and headers. -/

def allZero (b : List Byte) : Bool := b.all (· == 0)

/-- Order 5 of R77 for a launch packet (R76); a continuation's queue and team counts are ignored (R299). -/
def launchFields (b : List Byte) (cont : Bool) : Bool :=
  let x := leAt b 0x14 4
  let y := leAt b 0x18 2
  let z := leAt b 0x1A 2
  leAt b 0 2 == 1 && decide (leAt b 3 1 < 4) && leAt b 8 8 % 4096 == 0 && decide (leAt b 8 8 < 2 ^ 57) &&
  (cont || (x != 0 && decide (x ≤ 0x00FFFFFF) && y != 0 && z != 0 && decide (x * y * z ≤ 2 ^ 24))) &&
  decide (leAt b 0x1C 2 ≤ 64) && leAt b 0x1C 2 % 4 == 0 && decide (leAt b 0x1E 1 < 8) && leAt b 0x1F 1 == 0 &&
  allZero ((b.drop 0x20).take 32)

/-- Order 5 of R77 for an install packet: every field but type, queue, tag and object is reserved (R76). -/
def installFields (b : List Byte) : Bool := leAt b 3 1 == 0 && allZero (b.drop 0x10)

/-- A kernel header's fields (R34). -/
def headerOf (h : List Byte) : KHeader :=
  { kernel := leAt h 0x04 4, entry5 := leAt h 0x08 4, entry6 := leAt h 0x0C 4, len5 := leAt h 0x10 4, len6 := leAt h 0x14 4,
    width := 8 * 2 ^ leAt h 0x18 1, producers := leAt h 0x19 1, consumers := leAt h 0x1A 1, budgetP := 16 * leAt h 0x1B 1,
    budgetC := 16 * leAt h 0x1C 1, tokens := leAt h 0x1D 1, planeMask := leAt h 0x1E 1, stride := leAt h 0x1F 1,
    dataReg := Fin.ofNat 64 (leAt h 0x20 1), gens := leAt h 0x21 1, sharedKiB := leAt h 0x22 2, spill := leAt h 0x24 4,
    argBytes := leAt h 0x30 2, flags := leAt h 0x32 2 }

/-- Reason 0x02 of R36: a reserved field of the header is nonzero. -/
def headerReserved (h : List Byte) : Bool :=
  leAt h 2 2 != 0 || decide (leAt h 0x1E 1 ≥ 16) || decide (leAt h 0x21 1 ≥ 4) || decide (leAt h 0x32 2 ≥ 4) ||
  !allZero ((h.drop 0x34).take 44)

/-- An absent entry (R34). -/
def noEntry : Nat := 0xFFFFFFFF

/-- A role's budget code fits its number of groups. -/
def budgetOk (groups code : Nat) : Bool := if groups = 0 then code == 0 else decide (4 ≤ code) && decide (code ≤ 16)

/-- An entry and its length fit: a multiple of 4, or absent with length 0. -/
def entryOk (entry len : Nat) : Bool := if entry = noEntry then len == 0 else entry % 4 == 0

/-- Reason 0x03 of R36: the limits of R34. -/
def headerLimits (h : List Byte) : Bool :=
  let p := leAt h 0x19 1
  let c := leAt h 0x1A 1
  entryOk (leAt h 0x08 4) (leAt h 0x10 4) && entryOk (leAt h 0x0C 4) (leAt h 0x14 4) && decide (leAt h 0x18 1 ≤ 2) &&
  decide (1 ≤ p + c) && decide (p + c ≤ 16) && budgetOk p (leAt h 0x1B 1) && budgetOk c (leAt h 0x1C 1) &&
  decide (leAt h 0x1D 1 ≤ 8) && leAt h 0x1E 1 % 2 == 1 &&
  (if leAt h 0x1E 1 = 1 then leAt h 0x1F 1 == 0 else decide (12 ≤ leAt h 0x1F 1) && decide (leAt h 0x1F 1 ≤ 20)) &&
  leAt h 0x20 1 % 2 == 0 && decide (leAt h 0x20 1 ≤ 62) && leAt h 0x21 1 != 0 && decide (leAt h 0x22 2 ≤ 512) &&
  leAt h 0x24 4 % 256 == 0 && decide (leAt h 0x24 4 ≤ 2 ^ 20) && decide (leAt h 0x30 2 ≤ 64) && leAt h 0x30 2 % 4 == 0

/-- A launch may be placed on a generation (R32, R35); an entry whose text the object lacks is judged with reason 0x05 (log 59). -/
def KHeader.allows (h : KHeader) (gen : Nat) : Bool :=
  if gen = 5 then h.gens % 2 == 1 && h.entry5 != noEntry && decide (h.sharedKiB ≤ 256)
  else h.gens / 2 % 2 == 1 && (h.entry5 != noEntry || h.entry6 != noEntry)

/-- An entry and every compiled plane lie inside a text section of the given size (R33, R36 reason 0x05); an absent entry
does. -/
def textInside (h : KHeader) (entry len size : Nat) : Bool :=
  entry == noEntry ||
  (decide (entry < size) && (List.range 4).all fun p =>
    !(h.planeMask / 2 ^ p % 2 == 1) || decide (entry + (if p = 0 then 0 else p * 2 ^ h.stride) + len ≤ size))

/-- The reason for which a header is rejected (R36, reasons 0x01 to 0x06 in that order). -/
def headerReason (h : List Byte) (x : Sections) (kernel args : Nat) : Option Nat :=
  let k := headerOf h
  if leAt h 0 2 ≠ 1 then some 0x01
  else if headerReserved h || k.kernel != kernel then some 0x02
  else if !headerLimits h then some 0x03
  else if !k.allows 5 && !k.allows 6 then some 0x04
  else if !textInside k k.entry5 k.len5 x.size5 || !textInside k k.entry6 k.len6 x.size6 then some 0x05
  else if k.argBytes > args then some 0x06
  else none

/-- Pages that the 96 bytes of a kernel's header touch. -/
def headerPages (x : Sections) (kernel : Nat) : List Nat :=
  let at' := x.kernelTable + 96 * kernel
  if at' / 4096 = (at' + 95) / 4096 then [at' / 4096] else [at' / 4096, at' / 4096 + 1]

/-- Pages of a version, read by die d with the X check; none when one of them cannot be. -/
def State.textPages (s : State) (d : Nat) (o : CodeObject) (v : Version) : List Nat → Option (List (Nat × List Byte))
  | [] => some []
  | pg :: r =>
    match s.pageBytes d o v pg .fetch, s.textPages d o v r with
    | .ok bs, some rest => some ((pg, bs) :: rest)
    | _, _ => none

/-- The verified bytes of a header's pages: reason 0x0D when one of them cannot be read, else 0x0C when one fails its hash
check (R36, R77 order 7, R135). -/
def State.headerBytes (s : State) (d : Nat) (o : CodeObject) (v : Version) (pgs : List Nat) : Except Nat (List Byte) :=
  match s.textPages d o v pgs with
  | none => .error 0x0D
  | some ps =>
    if ps.all fun p => s.pageDigest d o v p.1 == some (sha3 p.2) then .ok (ps.flatMap (·.2)) else .error 0x0C

/-- Orders 5 to 8 of R77 for a launch packet of a partition, read by far die d. -/
def State.judgePacket (s : State) (d : Nat) (p : Fin 16) (cont : Bool) (b : List Byte) :
    Except Nat (CodeObject × Version × KHeader) :=
  if !launchFields b cont then .error 0x09
  else
    match s.object? p.val (BitVec.ofNat 64 (leAt b 8 8)) with
    | none => .error 0x0A
    | some o =>
      if leAt b 0x10 4 ≥ o.sections.kernels then .error 0x0A
      else
        match o.version? o.current with
        | none => .error 0x0A
        | some v =>
          let k := leAt b 0x10 4
          match s.headerBytes d o v (headerPages o.sections k) with
          | .error e => .error e
          | .ok bs =>
            let h := (bs.drop ((o.sections.kernelTable + 96 * k) % 4096)).take 96
            match headerReason h o.sections k (leAt b 0x1C 2) with
            | some e => .error e
            | none => .ok (o, v, headerOf h)

/-! Tokens (R25, R93, R404). -/

/-- The package token budget (R404). -/
def State.budget (s : State) : Nat := s.powerLimit * 7680 / 6000

/-- Tokens that the teams of a list hold. -/
def State.tokensOf (s : State) (ts : List Team) : Nat :=
  (ts.map fun t => match s.launch? t.launch with
    | some l => l.header.tokens
    | none => 0).sum

/-- Resident teams, and saved teams that no partition reset has ended, whose tokens stay counted (R380). -/
def State.holders (s : State) : List Team :=
  s.teams ++ (s.images.filter (·.live)).flatMap fun i =>
    (i.teams.filter fun t => (s.part t.1.partition.val).epoch == t.2).map (·.1)

/-- Tokens of a launch of partition p fit its share and the package budget; below a lowered budget admission waits until the
tokens in use have fallen under it (R25, R91, R404). -/
def State.tokensFit (s : State) (p : Fin 16) (n : Nat) : Bool :=
  decide (s.tokensOf (s.holders.filter fun t => t.partition == p) + n ≤ bits (s.part p.val).descriptor 12 12) &&
  decide (s.tokensOf s.holders + n ≤ s.budget) && (!s.overBudget || decide (s.tokensOf s.holders < s.budget))

/-! Dispatch (R78). -/

/-- What stands ready at a launch unit: a continuation, or the head of a queue. -/
inductive Head where
  | cont (c : Continuation)
  | queue (q : Fin 16) (x : Queued)
  deriving DecidableEq, Repr

def Head.bytes : Head → List Byte
  | .cont c => c.packet
  | .queue _ x => x.bytes

def Head.isCont : Head → Bool
  | .cont _ => true
  | .queue _ _ => false

def Head.isInstall : Head → Bool
  | .cont _ => false
  | .queue _ x => x.install

/-- The packet's priority field. -/
def Head.priority (h : Head) : Nat := leAt h.bytes 3 1 % 4

/-- Heads of a partition at far die 12 + u: continuations in the order in which they came, then queue heads from the queue
whose turn it is. -/
def State.heads (s : State) (u : Fin 2) (p : Fin 16) : List Head :=
  let conts := if u = 0 then (s.continuations.filter fun c => c.partition == p).map Head.cont else []
  conts ++ (List.range 8).filterMap fun i =>
    let q := 8 * u.val + (atV (s.part p.val).served u.val 0 + i) % 8
    match atV (s.part p.val).queues q [] with
    | [] => none
    | x :: _ => some (.queue (Fin.ofNat 16 q) x)

/-- A serial launch waits for the earlier launches of its queue. -/
def State.serialHolds (s : State) (p q : Fin 16) (b : List Byte) : Bool :=
  leAt b 0x1E 1 / 4 % 2 == 1 && s.launches.any fun l => l.partition == p && l.queue == some q

/-- A head is ready to dispatch: an install always, a launch while admission is open, no serial wait holds it, and its
tokens fit. -/
def State.headReady (s : State) (u : Fin 2) (p : Fin 16) (h : Head) : Bool :=
  h.isInstall ||
  (!s.tripped && (match h with
    | .cont _ => true
    | .queue q x => !s.serialHolds p q x.bytes) &&
   match s.judgePacket (12 + u.val) p h.isCont h.bytes with
   | .error _ => true
   | .ok (_, _, k) => s.tokensFit p k.tokens)

/-- The first head of the highest priority. -/
def bestHead : List Head → Option Head
  | [] => none
  | h :: r =>
    match bestHead r with
    | some k => if k.priority > h.priority then some k else some h
    | none => some h

/-- The head that the launch unit of far die 12 + u serves next, and its partition. -/
def State.nextHead (s : State) (u : Fin 2) : Option (Fin 16 × Head) :=
  ((List.range 16).map fun i => Fin.ofNat 16 (atV s.served u.val 0 + i)).findSome? fun p =>
    (bestHead ((s.heads u p).filter fun h => s.headReady u p h)).map fun h => (p, h)

/-- A head leaves, and the turns move past its partition and queue, for an install or a rejected packet too (log 59). -/
def State.takeHead (s : State) (u : Fin 2) (p : Fin 16) (h : Head) : State :=
  let s1 := { s with served := s.served.set u (p.val + 1) }
  match h with
  | .cont c => { s1 with continuations := s1.continuations.erase c }
  | .queue q _ => s1.updPart p.val fun x =>
      { x with queues := updV x.queues q.val (·.drop 1), served := x.served.set u (q.val % 8 + 1) }

/-- Curd records of a launch on a die. -/
def State.curdOf (s : State) (d launch : Nat) : List Curd := (s.die d).curd.filter (·.launch == launch)

/-- Curd records of a launch on a die are discarded and counted (R299, R391). -/
def State.discardCurd (s : State) (d : Nat) (p : Fin 16) (launch : Nat) : State :=
  (s.updPart p.val fun x => { x with cCurd := x.cCurd + BitVec.ofNat 64 (s.curdOf d launch).length }).updDie d fun x =>
    { x with curd := x.curd.filter (·.launch != launch) }

/-- A record in its place among records sorted by key, after those of equal key (R391). -/
def insertCurd (c : Curd) : List Curd → List Curd
  | [] => [c]
  | d :: r => if c.key.toNat < d.key.toNat then c :: d :: r else d :: insertCurd c r

def sortCurd (cs : List Curd) : List Curd := cs.foldl (fun l c => insertCurd c l) []

/-- Groups of at most w records of one key, in reverse order, with a record added to them. -/
def addToGroups (w : Nat) (c : Curd) : List (List Curd) → List (List Curd)
  | [] => [[c]]
  | g :: r => if g.length < w && g.all (·.key == c.key) then (g ++ [c]) :: r else [c] :: g :: r

/-- The groups of a continuation (R391). -/
def curdGroups (w : Nat) (cs : List Curd) : List (List Curd) :=
  ((sortCurd cs).foldl (fun gs c => addToGroups w c gs) []).reverse

/-- A launch of a packet bound to a code version. -/
def boundLaunch (id : Nat) (num : Word) (p : Fin 16) (queue : Option (Fin 16)) (privileged : Bool) (b : List Byte)
    (o : CodeObject) (v : Version) (h : KHeader) : Launch :=
  { id := id, num := num, partition := p, queue := queue, tag := packetTag b, priority := Fin.ofNat 4 (leAt b 3 1),
    policy := BitVec.ofNat 8 (leAt b 0x1E 1), privileged := privileged, object := o.addr, code := o.uid, version := v.num,
    sections := o.sections, header := h, dimX := leAt b 0x14 4, dimY := leAt b 0x18 2, dimZ := leAt b 0x1A 2,
    args := Vector.ofFn fun i => BitVec.ofNat 32 (leAt b (0x40 + 4 * i.val) 4), placed := 0, exited := 0, failed := false,
    dieReset := false, first := none, registered := none, die := none, groups := [] }

/-- The launch binds: it takes its partition's launch number, and a trace record is written (R78, R350, R394). -/
def State.bind (s : State) (d : Nat) (kind : Nat) (l : Launch) : State :=
  let s1 := s.updPart l.partition.val fun x => { x with launchNum := x.launchNum + 1 }
  { s1 with launches := s1.launches ++ [l], nextId := s1.nextId + 1 }.trace d l.partition.val kind 0xFF l.tag l.num 0xFFFFFFFF 0

/-- A continuation binds with its groups, or is rejected and its records are discarded (R299, R391). -/
def State.dispatchCont (s : State) (p : Fin 16) (c : Continuation) : State :=
  match s.judgePacket 12 p true c.packet with
  | .error e => (s.discardCurd c.die.val p c.launch).freeEvent 12 p.val 2 e (packetTag c.packet)
  | .ok (o, v, h) =>
    let gs := curdGroups h.width (s.curdOf c.die.val c.launch)
    let g := h.producers + h.consumers
    let l := boundLaunch s.nextId (s.part p.val).launchNum p none c.privileged c.packet o v h
    let l1 : Launch := { l with die := some c.die, groups := gs, dimX := (gs.length + g - 1) / g, dimY := 1, dimZ := 1 }
    let retag := fun (x : Curd) => if x.launch = c.launch then { x with launch := s.nextId } else x
    (s.bind 12 7 l1).updDie c.die.val fun d => { d with curd := d.curd.map retag }

/-- A launch packet binds or is rejected (R36, R77, R246). -/
def State.dispatchPacket (s : State) (d : Nat) (p q : Fin 16) (x : Queued) : State :=
  match s.judgePacket d p false x.bytes with
  | .error e => s.freeEvent d p.val 2 e (packetTag x.bytes)
  | .ok (o, v, h) =>
    s.bind d 2 (boundLaunch s.nextId (s.part p.val).launchNum p (some q) (x.aclM && bit s.control p.val) x.bytes o v h)

/-- LAUNCH_DISPATCH (R78): the launch unit serves the head whose turn it is, when that is a launch. -/
def execLaunchDispatch (o : Fin 2) (s : State) : Out :=
  .next (match s.nextHead o with
    | none => s
    | some (p, h) =>
      match h with
      | .cont c => (s.takeHead o p h).dispatchCont p c
      | .queue q x => if x.install then s else (s.takeHead o p h).dispatchPacket (12 + o.val) p q x)

/-! Install (R31, R79). -/

/-- The sections of an object header (R29); an absent text has size 0. -/
def sectionsOf (h : List Byte) : Sections :=
  let t5 := leAt h 0x14 4
  let t6 := leAt h 0x1C 4
  { size := leAt h 0x08 4, kernels := leAt h 0x0C 4, kernelTable := leAt h 0x10 4, text5 := t5,
    size5 := if t5 = 0 then 0 else leAt h 0x18 4, text6 := t6, size6 := if t6 = 0 then 0 else leAt h 0x20 4,
    data := leAt h 0x24 4, dataSize := leAt h 0x28 4, hashes := leAt h 0x2C 4 }

/-- Order 2 of R79: magic, version, reserved fields and the limits of R29. -/
def objectLimits (h : List Byte) : Bool :=
  let x := sectionsOf h
  leAt h 0 4 == 0x4E5A4C5A && leAt h 4 2 == 1 && decide (leAt h 6 2 < 2) && allZero ((h.drop 0x38).take 8) &&
  x.size % 4096 == 0 && decide (1 ≤ x.kernels) && decide (x.kernels ≤ 4096) && x.kernelTable % 32 == 0 &&
  x.text5 % 4096 == 0 && x.text6 % 4096 == 0 && leAt h 0x18 4 % 4 == 0 && leAt h 0x20 4 % 4 == 0 && x.data % 4096 == 0 &&
  decide (x.data + x.dataSize ≤ x.hashes) && ((leAt h 6 2 == 0) == (leAt h 0x30 4 == 0))

/-- The sections that hold bytes, as offset and size: header, kernel table, texts, data, page hashes, container (R29,
R30). -/
def sectionList (h : List Byte) : List (Nat × Nat) :=
  let x := sectionsOf h
  [(0, 64), (x.kernelTable, 96 * x.kernels), (x.text5, x.size5), (x.text6, x.size6), (x.data, x.dataSize),
   (x.hashes, 32 * (x.data / 4096)), (leAt h 0x30 4, if leAt h 6 2 = 0 then 0 else leAt h 0x34 4)].filter (·.2 != 0)

def overlaps (a b : Nat × Nat) : Bool := decide (a.1 < b.1 + b.2) && decide (b.1 < a.1 + a.2)

/-- Two sections of a list overlap. -/
def anyOverlap : List (Nat × Nat) → Bool
  | [] => false
  | a :: r => r.any (overlaps a) || anyOverlap r

/-- The sections of an object that passes R79's checks, read by far die d, or the reason of its rejection. -/
def State.judgeInstall (s : State) (d : Nat) (p : Fin 16) (a : Nat) : Except Nat Sections :=
  if a % 4096 ≠ 0 ∨ 2 ^ 57 ≤ a then .error 0x24
  else
    match s.readGlobal d p.val .agent a 64 with
    | .error _ => .error 0x24
    | .ok bs =>
      let h := bs.map (·.1)
      let x := sectionsOf h
      if !objectLimits h then .error 0x21
      else if (sectionList h).any fun c => decide (c.1 + c.2 > x.size) then .error 0x22
      else if anyOverlap (sectionList h) then .error 0x23
      else if (List.range (x.size / 4096)).any fun i => match s.translate d p.val .agent (a + 4096 * i) with
        | .ok _ => false
        | .error _ => true then .error 0x24
      else .ok x

/-- Code versions that are neither the current one of what is installed nor bound to a launch are freed, an object without a
version goes, and text of neither is kept (R37, R135, R139). -/
def State.freeVersions (s : State) : State :=
  let keep := fun (o : CodeObject) (v : Version) =>
    (v.num == o.current && (s.object? o.partition.val o.addr).any (·.uid == o.uid)) ||
    s.launches.any fun l => l.code == o.uid && l.version == v.num
  let objects := (s.objects.map fun (o : CodeObject) => { o with versions := o.versions.filter (keep o) }).filter
    fun o => !o.versions.isEmpty
  let held := fun (x : TextPage) => objects.any fun o => o.uid == x.object && o.versions.any (·.num == x.version)
  { s with objects := objects, dies := s.dies.map fun (d : Die) => { d with text := d.text.filter held } }

/-- An object with its first code version (R138). One that was installed at the address stays for the launches bound to it
(R37; log 36). -/
def State.addObject (s : State) (p : Fin 16) (a : DWord) (x : Sections) : State :=
  let o : CodeObject :=
    { uid := s.nextId, partition := p, addr := a, sections := x, current := 0, versions := [{ num := 0, pages := [], digests := [] }] }
  { s with objects := o :: s.objects, nextId := s.nextId + 1 }.freeVersions

/-- INSTALL (R79): an install packet at the head whose turn it is. -/
def execInstall (o : Fin 2) (s : State) : Out :=
  .next (match s.nextHead o with
    | none => s
    | some (p, h) =>
      if !h.isInstall then s
      else
        let d := 12 + o.val
        let s1 := s.takeHead o p h
        let b := h.bytes
        if !installFields b then s1.freeEvent d p.val 2 0x09 (packetTag b)
        else
          match s1.judgeInstall d p (leAt b 8 8) with
          | .error e => s1.freeEvent d p.val 5 e (packetTag b)
          | .ok x => (s1.addObject p (BitVec.ofNat 64 (leAt b 8 8)) x).freeEvent d p.val 4 0 (packetTag b))

/-! Events out (R80, R81). -/

/-- EVENT_SEND (R80): the next event of a partition, or the next management answer, leaves the package. -/
def execEventSend (o : Option (Fin 16)) (s : State) : Out :=
  .next (match o with
    | none =>
      match s.answers with
      | [] => s
      | e :: r => { s with answers := r, wire := s.wire ++ [e] }
    | some p =>
      match (s.part p.val).events with
      | [] => s
      | e :: r => { s with wire := s.wire ++ [e] }.updPart p.val fun x => { x with events := r, resetWait := x.resetWait - 1 })

/-- RESET_COMPLETE_EVENT (R81): every event from before the reset has been delivered. With it the descriptor, whose event
target it still goes to, returns to its reset value (R7, R73; log 43). -/
def execResetCompleteEvent (o : Fin 16) (s : State) : Out :=
  .next (
    let p := s.part o.val
    if !p.resetting || p.resetWait != 0 then s
    else
      let s1 := s.updPart o.val fun x => { x with resetting := false }
      ({ s1 with free := s1.free + 1 }.event o.val 7 0 (lowWord (Config.eventValue s1.free)) (BitVec.ofNat 64 p.resetCount)).updPart
        o.val fun x => { x with descriptor := 0 })

/-! Placement (R85 to R95). -/

/-- A row to be placed: role, first group, number of groups (R87). -/
structure Row where
  consumer : Bool
  first : Nat
  count : Nat
  deriving DecidableEq, Repr

/-- Rows of n groups of a role from group number first on, per groups to a row; fuel bounds them. -/
def rowsFrom (consumer : Bool) (per : Nat) : Nat → Nat → Nat → List Row
  | 0, _, _ => []
  | fuel + 1, first, n =>
    if n = 0 then []
    else { consumer := consumer, first := first, count := min per n } :: rowsFrom consumer per fuel (first + min per n) (n - min per n)

/-- The rows of a team in the order of R92. -/
def KHeader.rows (h : KHeader) : List Row :=
  let per := 32 / h.width
  rowsFrom false per 16 0 h.producers ++ rowsFrom true per 16 h.producers h.consumers

def KHeader.budget (h : KHeader) (consumer : Bool) : Nat := if consumer then h.budgetC else h.budgetP

/-- What a core's groups occupy: register ranges (sub-core, base, length) and group-table entries (sub-core, entry). -/
structure Used where
  ranges : List (Nat × Nat × Nat)
  entries : List (Nat × Nat)
  deriving DecidableEq, Repr

/-- Registers are taken in blocks of 16, since every budget is a multiple of 16: whether each block of a sub-core is
free. -/
def Used.free (u : Used) (k : Nat) : List Bool :=
  (List.range (Config.laneRegs / 16)).map fun i =>
    u.ranges.all fun r => r.1 != k || decide (16 * i + 16 ≤ r.2.1) || decide (r.2.1 + r.2.2 ≤ 16 * i)

/-- Free blocks from the start of a list on. -/
def headRun : List Bool → Nat
  | true :: r => headRun r + 1
  | _ => 0

def longestRun : List Bool → Nat
  | [] => 0
  | b :: r => max (headRun (b :: r)) (longestRun r)

/-- The first place where n blocks are free. -/
def firstRun (n : Nat) : Nat → List Bool → Option Nat
  | _, [] => none
  | i, b :: r => if n ≤ headRun (b :: r) then some i else firstRun n (i + 1) r

/-- The sub-core with the longest run, the lowest on ties (R92). -/
def Used.best (u : Used) : Nat :=
  [1, 2, 3].foldl (fun b k => if longestRun (u.free k) > longestRun (u.free b) then k else b) 0

/-- Free group-table entries of a sub-core, lowest first. -/
def Used.freeEntries (u : Used) (k : Nat) : List Nat :=
  (List.range Config.groupEntries).filter fun e => !u.entries.contains (k, e)

/-- A placed row: sub-core, base and the entries of its groups (log 35). -/
structure RowPlace where
  row : Row
  sub : Nat
  base : Nat
  entries : List Nat
  deriving DecidableEq, Repr

/-- The place of one row, and what is used then (R92). -/
def Used.place (u : Used) (r : Row) (budget : Nat) : Option (RowPlace × Used) :=
  let k := u.best
  let es := (u.freeEntries k).take r.count
  match firstRun (budget / 16) 0 (u.free k) with
  | none => none
  | some i =>
    if es.length < r.count then none
    else some ({ row := r, sub := k, base := 16 * i, entries := es },
               { ranges := (k, 16 * i, budget) :: u.ranges, entries := es.map (fun e => (k, e)) ++ u.entries })

def Used.placeAll (u : Used) (h : KHeader) : List Row → Option (List RowPlace)
  | [] => some []
  | r :: rs =>
    match u.place r (h.budget r.consumer) with
    | none => none
    | some (p, v) => (v.placeAll h rs).map (p :: ·)

/-- Resident teams of a core. -/
def State.teamsOn (s : State) (d : Fin 8) (c : Nat) : List Team := s.teams.filter fun t => t.die == d && t.core == c

/-- What the resident teams of a core occupy: rows until their team exits, entries until their group ends (R94). -/
def State.used (s : State) (d : Fin 8) (c : Nat) : Used :=
  let gs := (s.teamsOn d c).flatMap (·.groups)
  { ranges := gs.map fun g => (g.place.sub.val, g.place.base, g.budget)
    entries := (gs.filter fun g => !g.ended).map fun g => (g.place.sub.val, g.place.entry) }

/-- Shared memory in KiB that the resident teams of a core hold. -/
def State.sharedUsed (s : State) (d : Fin 8) (c : Nat) : Nat :=
  ((s.teamsOn d c).map fun t => match s.launch? t.launch with
    | some l => l.header.sharedKiB
    | none => 0).sum

/-- The core takes teams: its die is live, the core is in the core map, its tile is open, its cluster not drained (R27,
R91, R251, R366, R383). -/
def State.coreOpen (s : State) (d : Fin 8) (c : Nat) : Bool :=
  (s.die d.val).live && decide (c < Config.cores d.val) && bit (atV (s.die d.val).coreMap (c / 64) 0) (c % 64) &&
  (s.tiles.all fun x => !(x.die == d && x.core == c) || x.state == .open) &&
  !(s.drained.any fun x => x.die == d && x.cluster == c / 4)

/-- A team of a launch could be placed on a core that is open: conditions 1 to 5 of R91, but for the tokens of its partition
and the package. -/
def State.coreFits (s : State) (l : Launch) (d : Fin 8) (c : Nat) : Option (List RowPlace) :=
  let h := l.header
  if h.allows (Config.generation d.val) && l.die.all (· == d) && decide ((s.teamsOn d c).length < Config.teamsPerCore) &&
      decide (s.sharedUsed d c + h.sharedKiB ≤ Config.sharedKiB d.val) &&
      decide (s.tokensOf (s.teamsOn d c) + h.tokens ≤ Config.heavyUnits) then
    (s.used d c).placeAll h h.rows
  else none

/-- A lane at group start (R122, R225). -/
def Lane.fresh : Lane := { v := Vector.replicate 256 0, vp := 0, p := 0, pl := 0 }

/-- A slice at group start (R28, R225). -/
def Slice.start (n gang : Nat) (entry : Word) (dataReg : Fin 64) (data : DWord) : Slice :=
  let x : Slice :=
    { num := n, offset := entry, inClause := false, cbuf := none, rflag := none, sflag := none, yieldHint := 0,
      s := Vector.replicate 64 0, sp := 0, em := 0xF, sg := 0, ie := {}, f := 0, wb := 0, lo := 0, l0 := Lane.fresh,
      l1 := Lane.fresh, l2 := Lane.fresh, l3 := Lane.fresh, planeNext := none, marks := [], gang := gang, exited := false,
      hold := .none, asked := false, dbg := .none, defer := 0, deferred := 0, dRec := none, dFresh := false, dOther := false,
      replay := 0, sdone := false }
  x.setPair dataReg data

/-- A lane of a continuation with its record (R391). -/
def Lane.carry (l : Lane) (c : Curd) : Lane :=
  ((((l.put 0 c.payload[0] false).put 1 c.payload[1] false).put 2 c.payload[2] false).put 3 c.payload[3] false).put 4
    (c.key.zeroExtend 32) false

/-- A slice of a continuation: lanes with a record are active and carry it (R391). -/
def Slice.carry (x : Slice) (cs : List Curd) : Slice :=
  let mine := fun (j : Fin 4) => cs[4 * x.num + j.val]?
  let y := x.mapLanes fun j l => match mine j with
    | some c => l.carry c
    | none => l
  { y with em := laneMask4 (lanes4.filter fun j => (mine j).isSome) }

/-- A group at its start (R48, R87, R95, R225). -/
def Group.start (l : Launch) (gen num : Nat) (consumer : Bool) (place : Place) (gang : Nat) (curd : Option (List Curd)) : Group :=
  let h := l.header
  let entry := BitVec.ofNat 32 (l.text gen).2.2
  let slices := (List.range (h.width / 4)).map fun n =>
    let x := Slice.start n gang entry h.dataReg (l.object + BitVec.ofNat 64 l.sections.data)
    match curd with
    | some cs => x.carry cs
    | none => x
  { num := num, consumer := consumer, width := h.width, budget := h.budget consumer, place := place, mode := 1, vat := 0,
    slices := slices, ops := [], nextOp := 0, issued := 0, faulted := [], stack := {}, stackPoison := [], keep := none, keepSeen := false,
    started := true, trapped := false, ended := false, drained := false }

/-- The next start number of sub-core k of a core (R180). -/
def State.startNumber (s : State) (d : Fin 8) (c : Nat) (k : Fin 4) : Nat :=
  match s.subs.find? fun x => x.die == d && x.core == c && x.sub == k with
  | some x => x.nextStart
  | none => 0

/-- Groups of a placed row; records are those of a continuation's groups of this team (R391). -/
def RowPlace.groups (r : RowPlace) (l : Launch) (gen gang start : Nat) (curd : Option (List (List Curd))) : List Group :=
  r.entries.zipIdx.map fun e =>
    let num := r.row.first + e.2
    let place : Place :=
      { sub := Fin.ofNat 4 r.sub, entry := e.1, base := r.base, lanePos := l.header.width * e.2, start := start + e.2 }
    Group.start l gen num r.row.consumer place gang (curd.map fun gs => gs.getD num [])

/-- The groups of the rows, each row a gang; sub-cores number their groups in this order (R88, R180). -/
def startRows (l : Launch) (gen : Nat) (curd : Option (List (List Curd))) : Nat → (Nat → Nat) → List RowPlace → List Group
  | _, _, [] => []
  | gang, start, r :: rs =>
    r.groups l gen gang (start r.sub) curd ++
      startRows l gen curd (gang + 1) (fun k => if k = r.sub then start k + r.entries.length else start k) rs

/-- Sub-core k has started n groups more. -/
def State.countStarts (s : State) (d : Fin 8) (c : Nat) (k : Fin 4) (n : Nat) : State :=
  if n = 0 then s
  else
    match s.subs.find? fun x => x.die == d && x.core == c && x.sub == k with
    | some x => { s with subs := { x with nextStart := x.nextStart + n } ::
                    s.subs.filter fun x => !(x.die == d && x.core == c && x.sub == k) }
    | none => { s with subs := { die := d, core := c, sub := k, n := 0, ptr := (0, 0), nextStart := n, due := false } :: s.subs }

/-- Trace records of groups of a team that start or end (R394). -/
def State.traceGroup (s : State) (t : Team) (l : Launch) (kind g : Nat) : State :=
  s.trace t.die.val t.partition.val kind g l.tag l.num (BitVec.ofNat 32 t.lin) 0

/-- The next team of a launch on a core, with the given places (R85, R88, R91 to R95); a continuation's records leave the
curd unit with its first group (R391). -/
def State.placeTeam (s : State) (l : Launch) (d : Fin 8) (c : Nat) (rs : List RowPlace) : State :=
  let h := l.header
  let n := l.placed
  let per := h.producers + h.consumers
  let curd := l.die.map fun _ => (l.groups.drop (n * per)).take per
  let groups := startRows l (Config.generation d.val) curd 0 (fun k => s.startNumber d c (Fin.ofNat 4 k)) rs
  let t : Team :=
    { uid := s.nextUid, launch := l.id, partition := l.partition, die := d, core := c, lin := n, x := n % l.dimX,
      y := n / l.dimX % l.dimY, z := n / (l.dimX * l.dimY), groups := groups, shared := {}, sharedPoison := [],
      barriers := Vector.replicate 16 {}, streams := [], tokens := [], nextGang := rs.length, frozen := false }
  let s1 := s.msg (match l.queue with
    | some q => queueDie q.val
    | none => 12) d.val
  let s2 := { s1 with teams := s1.teams ++ [t], nextUid := s1.nextUid + 1, overBudget := false,
                      residues := s1.residues.filter fun r => !(r.die == d && r.core == c) }.updLaunch l.id fun x =>
    { x with placed := n + 1 }
  let s3 := [0, 1, 2, 3].foldl (fun (s : State) (k : Fin 4) =>
    s.countStarts d c k (groups.filter fun g => g.place.sub == k).length) s2
  let s4 := match l.die with
    | some e => if n = 0 then s3.updDie e.val fun x => { x with curd := x.curd.filter (·.launch != l.id) } else s3
    | none => s3
  groups.foldl (fun (s : State) g => s.traceGroup t l 4 g.num) s4

/-- The places of a launch's next team on a core, when it can be placed there now (R91). -/
def State.canPlace (s : State) (l : Launch) (d : Fin 8) (c : Nat) : Option (List RowPlace) :=
  if l.placed ≥ l.dimX * l.dimY * l.dimZ || !s.coreOpen d c || !s.tokensFit l.partition l.header.tokens then none
  else s.coreFits l d c

/-- The far die that holds a launch. -/
def Launch.home (l : Launch) : Nat :=
  match l.queue with
  | some q => queueDie q.val
  | none => 12

/-- The place of a launch among its partition's (R78): priority, continuations first, then queues by turn. -/
def Launch.rank (l : Launch) (turn : Nat) : Nat :=
  (3 - l.priority.val) * 16 + match l.queue with
    | none => 0
    | some q => 1 + (q.val + 8 - turn % 8) % 8

/-- The first launch of the least rank. -/
def bestLaunch (turn : Nat) : List Launch → Option Launch
  | [] => none
  | l :: r =>
    match bestLaunch turn r with
    | some k => if k.rank turn < l.rank turn then some k else some l
    | none => some l

/-- The launch of a launch unit's that is served next among those that a core can take (R78, R94). -/
def State.nextPlace (s : State) (u : Fin 2) (d : Fin 8) (c : Nat) : Option Launch :=
  ((List.range 16).map fun i => (atV s.placing u.val 0 + i) % 16).findSome? fun p =>
    bestLaunch (atV (s.part p).placing u.val 0) (s.launches.filter fun l =>
      l.partition.val == p && l.home == 12 + u.val && (s.canPlace l d c).isSome)

/-- The turns move past a launch's partition and queue. -/
def State.takePlace (s : State) (u : Fin 2) (l : Launch) : State :=
  { s with placing := s.placing.set u (l.partition.val + 1) }.updPart l.partition.val fun x =>
    { x with placing := match l.queue with
        | some q => x.placing.set u (q.val % 8 + 1)
        | none => x.placing }

/-- The launch unit of a launch. -/
def Launch.unit (l : Launch) : Fin 2 := if l.home = 13 then 1 else 0

/-- TEAM_PLACEMENT (R91): the next team of the launch that is served next (R94); a trip does not stop it (R26; log 53). -/
def execTeamPlacement (o : PlaceArgs) (s : State) : Out :=
  .next (match s.launch? o.launch with
    | none => s
    | some l =>
      match s.canPlace l o.die o.core with
      | none => s
      | some rs =>
        if (s.nextPlace l.unit o.die o.core).any (·.id == l.id) then (s.takePlace l.unit l).placeTeam l o.die o.core rs else s)

/-! The end of groups, teams and launches. -/

/-- A late fault that no WAITP has raised is raised where its group ends (R357). -/
def State.lateFault (s : State) (t : Team) (g : Group) : State :=
  match if g.trapped then none else oldestOp g.lateFaults with
  | none => s
  | some o =>
    ((s.record t (lateRec g o (o.fault.getD { cls := .page }) 0xFFFFFFFE)).1.updLaunch t.launch fun l =>
      { l with failed := true }).updGroup t.uid g.num fun g => { g with trapped := true }

/-- What an exited team leaves in the shared memory of its core. -/
def Team.residue (t : Team) : List Residue :=
  if t.shared.cells.isEmpty && t.sharedPoison.isEmpty then []
  else [{ die := t.die, core := t.core, launch := t.launch, lin := t.lin, shared := t.shared, poison := t.sharedPoison }]

/-- A team whose groups have all ended exits: its resources return (R94, R389), and the bytes of its shared memory stay on its
core until a team is placed there (R95, R398). -/
def State.exitTeam (s : State) (uid : Nat) : State :=
  match s.team? uid with
  | none => s
  | some t =>
    if !t.groups.all (·.ended) then s
    else
      let s1 := match s.launch? t.launch with
        | some l => s.msg t.die.val l.home
        | none => s
      { s1 with teams := s1.teams.filter (·.uid != uid), residues := s1.residues ++ t.residue }.updLaunch t.launch fun l =>
        { l with exited := l.exited + 1 }

/-- A group may end: its slices have exited and every operation has completed (R236). -/
def Group.endable (g : Group) : Bool := g.started && !g.ended && g.slices.all (·.exited) && g.ops.all Op.cleared

/-- GROUP_END (R94, R96, R236, R357, R389). -/
def execGroupEnd (o : GroupRef) (s : State) : Out :=
  .next (match s.team? o.team with
    | none => s
    | some t =>
      match t.group? o.group, s.launch? t.launch with
      | some g, some l =>
        if t.frozen || !g.endable then s
        else
          let s1 := (s.lateFault t g).traceGroup t l 5 g.num
          (s1.updTeam t.uid fun t =>
            { t.updGroup g.num (fun g => { g with ended := true, keep := none }) with
              tokens := t.tokens.filter (·.group != g.num) }).exitTeam t.uid
      | _, _ => s)

/-- The launch has nothing left to do (R390). -/
def State.launchDone (s : State) (l : Launch) : Bool :=
  l.placed == l.dimX * l.dimY * l.dimZ && l.exited == l.placed && s.landings.all fun x => x.launch != l.id

def dies8 : List (Fin 8) := [0, 1, 2, 3, 4, 5, 6, 7]

/-- Curd records of a launch at its completion: each die that holds some starts a continuation, or they are discarded and
counted (R391). -/
def State.handOn (s : State) (l : Launch) : State :=
  let ds := dies8.filter fun d => !(s.curdOf d.val l.id).isEmpty
  match if l.failed || l.dieReset then none else l.registered with
  | some b => { s with continuations := s.continuations ++ ds.map fun (d : Fin 8) =>
      { partition := l.partition, die := d, launch := l.id, packet := b, privileged := l.privileged } }
  | none => ds.foldl (fun (s : State) d => s.discardCurd d.val l.partition l.id) s

/-- The event of a launch that completes: code, reason and detail (R353, R390, R407). -/
def State.completion (s : State) (l : Launch) : Nat × Nat × DWord :=
  if l.dieReset then (3, 0, 0)
  else if l.failed then
    match l.first with
    | some (c, a) => (3, c.toNat, a)
    | none => (3, 0, 0)
  else
    let held := (dies8.map fun d => (s.curdOf d.val l.id).length).sum
    (1, 0, BitVec.ofNat 64 (l.num.toNat + 2 ^ 32 * held))

/-- LAUNCH_COMPLETE (R390). -/
def execLaunchComplete (o : Nat) (s : State) : Out :=
  .next (match s.launch? o with
    | none => s
    | some l =>
      if !s.launchDone l then s
      else
        let e := s.completion l
        let s1 := (s.handOn l).trace l.home l.partition.val 3 0xFF l.tag l.num 0xFFFFFFFF e.2.2
        let s2 := s1.eventFrom l.home l.partition.val e.1 e.2.1 l.tag e.2.2
        { s2 with launches := s2.launches.filter (·.id != l.id) }.freeVersions)

end Sys2Proof.Machine
end

