-- ==== Sys2Proof/Machine/Pages.lean ====
section
/-! DEFINITION. What changes pages under running work: collapse (R113), splintering (R115 to R117), the migration engines (R118
to R120), bulk data from the ports (R69, R266), and soft errors (R360). An engine's command is carried out in one step
(log 5). -/

namespace Sys2Proof.Machine

/-! Accesses that hold a translation of a page (R108). -/

def Source.mapSpots (f : Spot → Spot) : Source → Source
  | .mem ps => .mem (ps.map fun p => (f p.1, p.2))
  | .data bs => .data bs

def Chunk.mapSpots (r w : Spot → Spot) (c : Chunk) : Chunk := { c with dst := w c.dst, src := c.src.mapSpots r }

/-- A job with its translated places changed: r those that it reads, w those that it writes. -/
def Job.mapSpots (r w : Spot → Spot) : Job → Job
  | .access ord parts ws => .access ord (parts.map fun p => { p with spot := if p.act.writes then w p.spot else r p.spot }) ws
  | .copy j => .copy { j with todo := j.todo.map (Chunk.mapSpots r w), held := j.held.map fun p => ((if j.out then w else r) p.1, p.2) }
  | .gather j => .gather { j with todo := j.todo.map (Chunk.mapSpots r w) }
  | .xpand j => .xpand { j with todo := j.todo.map (·.map (Chunk.mapSpots r w)) }
  | j => j

def Op.mapSpots (r w : Spot → Spot) (o : Op) : Op :=
  { o with job := o.job.mapSpots r w, early := o.early.map fun e => { e with spot := r e.spot } }

/-- A place in the n bytes of a page from first on, under the page's new leaf. -/
def State.movedSpot (s : State) (d p first n level : Nat) (e : DWord) : Spot → Spot
  | .main t => if first ≤ t.va ∧ t.va < first + n then .main (s.targetOf d p t.va level e) else .main t
  | x => x

/-- Accesses of a partition that are still to be performed in a page go to its new place: writes, and reads too when the page's
copies have been one until now (R113, R114, R119; log 60). -/
def State.redirect (s : State) (p : Fin 16) (first level : Nat) (e : DWord) (reads : Bool) : State :=
  let f := fun (t : Team) =>
    if t.partition = p then
      let w := s.movedSpot t.die.val p.val first (2 ^ leafBits level e) level e
      t.mapGroups fun g => { g with ops := g.ops.map (Op.mapSpots (if reads then w else id) w) }
    else t
  { s with teams := s.teams.map f, images := s.images.map fun i => { i with teams := i.teams.map fun t => (f t.1, t.2) } }

/-! Collapse. -/

/-- A free value for a field of a trace record that no rule gives (log 34). -/
def State.freeWord (s : State) : State × Word := ({ s with free := s.free + 1 }, lowWord (Config.eventValue s.free))

/-- Steps 3 to 5 of R113 for a page whose entry says that it is collapsing: the home copy alone stays, parked writes replay,
the collapse is counted and traced by the home near die. -/
def State.endCollapse (s : State) (p : Fin 16) (first level pa : Nat) (e : DWord) : State :=
  let n := 2 ^ leafBits level e
  let e' := setBits (setBits e 6 2 1) 10 2 0
  let s1 := ((s.putEntry p.val pa e').uncache p.val first n).redirect p first level e' true
  let s2 := (s1.serve (p, first, n)).updPart p.val fun x => { x with cCollapse := x.cCollapse + 1 }
  let w := s2.freeWord
  w.1.trace (8 + pteHome e) p.val 6 0xFF 0 w.2 0xFFFFFFFF (BitVec.ofNat 64 first)

/-- COLLAPSE (R113) of the page that begins at an address; a page whose entry the host has rewritten meanwhile is served as
it stands (R108). -/
def execCollapse (o : VaRef) (s : State) : Out :=
  .next (if !s.collapsing.contains (o.partition, o.va) then s
    else
      let s1 := { s with collapsing := s.collapsing.erase (o.partition, o.va) }
      match s1.leafFor o.partition.val o.va.toNat with
      | .error _ => s1.serve (o.partition, o.va.toNat, 4096)
      | .ok (level, pa, e) =>
        if ptePlace e = 2 ∧ pteState e = 1 then s1.endCollapse o.partition o.va.toNat level pa e
        else s1.serve (o.partition, o.va.toNat, 2 ^ leafBits level e))

/-! Splintering. -/

/-- Entries of a table filled from a leaf: entry i gets frame + i × size (R116). -/
def State.fillTable (s : State) (p table : Nat) (e : DWord) (size : Nat) : State :=
  (List.range 512).foldl (fun (s : State) i =>
    s.putEntry p (table + 8 * i) (setBits e 12 36 ((pteFrame e + i * size) / 4096))) s

/-- Entries of a 64 KiB group rewritten as 4 KiB leaves, entry 0 last (R116). -/
def State.splitGroup (s : State) (p at' : Nat) (e : DWord) : State :=
  ((List.range 15).map (· + 1) ++ [0]).foldl (fun (s : State) i =>
    s.putEntry p (at' + 8 * i) (setBits (setBits e 5 1 0) 12 36 ((pteFrame e + 4096 * i) / 4096))) s

/-- A leaf larger than 4 KiB splintered one level; none when the pool is empty (R116, R117). -/
def State.splinter (s : State) (p : Nat) (va level pa : Nat) (e : DWord) : Option State :=
  let b := leafBits level e
  let first := va / 2 ^ b * 2 ^ b
  if level = 0 then some ((s.splitGroup p pa e).uncache p first (2 ^ b))
  else
    match (s.part p).splinter with
    | [] => none
    | f :: r =>
      let s1 := (s.updPart p fun x => { x with splinter := r }).fillTable p f.toNat e (2 ^ (b - 9))
      -- a pointer has V, T, S and frame (R105)
      let pointer := BitVec.ofNat 64 (f.toNat / 4096 % 2 ^ 36 * 2 ^ 12 + 0x31)
      some ((s1.putEntry p pa pointer).uncache p first (2 ^ b))

/-! The migration engines (R118 to R120). -/

/-- A field of a command is outside its limits (status 0x34). -/
def MigCmd.bad (c : MigCmd) : Bool :=
  let place := c.target % 4
  let home := c.target / 4 % 4
  c.op == 0 || decide (c.op > 3) || c.partition ≥ 16 || c.reserved != 0 || decide (c.permissions ≥ 8) ||
  c.start.toNat % 4096 != 0 || decide (2 ^ 57 ≤ c.start.toNat) || c.length.toNat % 4096 != 0 || c.length == 0 ||
  c.completion.toNat % 16 != 0 || decide (2 ^ 57 ≤ c.completion.toNat) ||
  (c.op != 2 && (decide (c.target ≥ 16) || c.dest.toNat % 4096 != 0 || (place == 0 && home != 0) ||
    (place == 3 && decide (home ≥ 2)) || (c.op == 3 && place != 2)))

/-- The leaf of a page after the command: its permissions, or its new frame, placement and home (R119). -/
def MigCmd.leaf (c : MigCmd) (dest : Nat) (e : DWord) : DWord :=
  if c.op = 2 then setBits e 1 3 c.permissions
  else setBits (setBits (setBits (setBits e 12 36 (dest / 4096)) 6 2 (c.target % 4)) 8 2 (c.target / 4 % 4)) 10 2 0

/-- Places that hold byte pa of a page with the given leaf: every near die when it is replicated (R109, R112). -/
def placesOf (e : DWord) (pa : Nat) : List (Nat × Nat) :=
  if ptePlace e = 2 then [8, 9, 10, 11].map fun d => (d, pa) else [placeOf 12 e pa]

/-- Pages of 4 KiB copied, with their poison, from an old leaf's frame to a new leaf's, under one key (R119 step 3). -/
def State.copyPages (s : State) (key : Option Key) (old new : DWord) (n : Nat) : State :=
  (List.range n).foldl (fun (s : State) i =>
    let src := placeOf 12 old (pteFrame old + 4096 * i)
    let bs := s.readMain key (mainAddr src.1 src.2) 4096
    (placesOf new (pteFrame new + 4096 * i)).foldl (fun (s : State) t => s.writeMain key (mainAddr t.1 t.2) bs) s) s

/-- A page can be changed as one: it lies whole in n bytes from va, and its new frame is aligned to its size (R115). -/
def MigCmd.whole (c : MigCmd) (va n dest size : Nat) : Bool :=
  va % size == 0 && decide (size ≤ n) && (c.op == 2 || dest % size == 0)

/-- The splintering that n bytes from va need, before the first page is changed, up to a page that is not valid (R115, R119);
none when the pool is empty. fuel bounds the splinters and pages. -/
def State.splinterRange (s : State) (p : Fin 16) (c : MigCmd) : Nat → Nat → Nat → Nat → Option State
  | 0, _, _, _ => some s
  | fuel + 1, va, n, dest =>
    if n = 0 then some s
    else
      match s.leafFor p.val va with
      | .error _ => some s
      | .ok (level, pa, e) =>
        if (s.judgeLeaf p.val .agent level e).isSome then some s
        else
          let size := 2 ^ leafBits level e
          if c.whole va n dest size then s.splinterRange p c fuel (va + size) (n - size) (dest + size)
          else
            match s.splinter p.val va level pa e with
            | none => none
            | some s1 => s1.splinterRange p c fuel va n dest

/-- The rest of a range, splintered: n bytes from va, to frames from dest on; status and pages done. -/
def State.migratePages (s : State) (p : Fin 16) (c : MigCmd) : Nat → Nat → Nat → Nat → Nat → State × Nat × Nat
  | 0, _, _, _, pages => (s, 0, pages)
  | fuel + 1, va, n, dest, pages =>
    if n = 0 then (s, 0, pages)
    else
      match s.leafFor p.val va with
      | .error .key => (s, 0x35, pages)
      | .error _ => (s, 0x31, pages)
      | .ok (level, pa, e) =>
        match s.judgeLeaf p.val .agent level e with
        | some .key => (s, 0x35, pages)
        | some _ => (s, 0x31, pages)
        | none =>
          let size := 2 ^ leafBits level e
          let e' := c.leaf dest e
          if c.op ≠ 2 ∧ dest + size > s.tierBound e' then (s, 0x32, pages)
          else
            let s1 := if c.op = 2 then s else s.copyPages (s.keyIn p.val (pteKey e)) e e' (size / 4096)
            let s2 := (s1.putEntry p.val pa e').uncache p.val va size
            let s3 := if c.op = 2 then s2 else (s2.redirect p va level e' false).serve (p, va, size)
            s3.migratePages p c fuel (va + size) (n - size) (dest + size) (pages + size / 4096)

/-- A command's range changed: its splintering first, then its pages (R115, R119); status and pages done. -/
def State.migrateRange (s : State) (p : Fin 16) (c : MigCmd) : State × Nat × Nat :=
  let fuel := 4 * (c.length.toNat / 4096) + 4
  match s.splinterRange p c fuel c.start.toNat c.length.toNat c.dest.toNat with
  | none => (s, 0x33, 0)
  | some s1 => s1.migratePages p c fuel c.start.toNat c.length.toNat c.dest.toNat 0

/-- The completion record of a command (R120, R413), written by far die d. -/
def State.migrationRecord (s : State) (d : Nat) (p : Fin 16) (c : MigCmd) (status pages : Nat) : State :=
  let s1 := s.tick d
  (s1.writeRecord d p.val c.completion.toNat (toLE 4 status ++ toLE 4 pages ++ toLE 8 (s1.die d).counter.toNat)).1

/-- A page of the command's range is being collapsed: the engine waits for it (R108). -/
def State.collapsingIn (s : State) (c : MigCmd) : Bool :=
  s.collapsing.any fun x => x.1.val == c.partition && decide (c.start.toNat < x.2.toNat + 2 ^ 30) &&
    decide (x.2.toNat < c.start.toNat + c.length.toNat)

/-- The command is carried out and its record written. -/
def State.migrate (s : State) (o : Fin 2) (c : MigCmd) : State :=
  let p : Fin 16 := Fin.ofNat 16 c.partition
  let s1 := { s with migrations := updV s.migrations o.val (·.drop 1) }
  if c.partition ≥ 16 then s1
  else if c.bad then
    if c.completion.toNat % 16 ≠ 0 ∨ 2 ^ 57 ≤ c.completion.toNat then s1.updPart p.val fun x => { x with cRecords := x.cRecords + 1 }
    else s1.migrationRecord (12 + o.val) p c 0x34 0
  else
    let r := s1.migrateRange p c
    r.1.migrationRecord (12 + o.val) p c r.2.1 r.2.2

/-- The engine of far die 12 + o takes its oldest command when that has one of the given ops. -/
def State.runMigration (s : State) (o : Fin 2) (mine : Nat → Bool) : State :=
  match s.migrations[o] with
  | [] => s
  | c :: _ => if mine c.op && !s.collapsingIn c then s.migrate o c else s

/-- MIGRATE_MOVE (R119); a command with a reserved op ends here too, with status 0x34. -/
def execMigrateMove (o : Fin 2) (s : State) : Out := .next (s.runMigration o fun n => n != 2 && n != 3)
/-- MIGRATE_PROTECT (R119). -/
def execMigrateProtect (o : Fin 2) (s : State) : Out := .next (s.runMigration o (· == 2))
/-- MIGRATE_REPLICATE (R118, R119). -/
def execMigrateReplicate (o : Fin 2) (s : State) : Out := .next (s.runMigration o (· == 3))

/-! Bulk data. -/

/-- BULK_DATA_INGRESS (R69, R72, R266): bytes for the window of the partition that the sender's entry names. A message whose
bytes meet a fault of R107 is not taken; one for a replicated page begins its collapse (log 38). -/
def execBulkDataIngress (o : BulkData) (s : State) : Out :=
  .next (match s.usable o.source with
    | none => s.countUnmatched
    | some (_, p) =>
      if 2 ^ 57 < o.address.toNat + o.bytes.length then s
      else
        match s.writeGlobal (portDie o.port) p.val o.address.toNat (clean o.bytes) with
        | .ok s1 => s1
        | .error (va, .collapse) => s.beginCollapse (portDie o.port) p va
        | .error _ => s)

/-! Soft errors (R360). -/

/-- Bytes of checked memory that a die holds: a scratchpad, HBM4E, or far memory (R14, R109). -/
def State.memoryOf (s : State) (d : Nat) : Nat :=
  if d < 8 then Config.scratchMiB d * 2 ^ 20 else if d < 12 then Config.nearBound else (s.die d).farBytes

/-- The die on which an error strikes; none when there is no such granule or register. -/
def State.eccDie (s : State) : EccTarget → Option Nat
  | .granule d g => if 32 * g < s.memoryOf d.val then some d.val else none
  | .shared t g => (s.team? t).bind fun x => if 32 * g < s.bound x .shared then some x.die.val else none
  | .laneReg t n lane i => (s.team? t).bind fun x => (x.group? n).bind fun y =>
      if lane < y.width ∧ i < y.budget then some x.die.val else none
  | .scalarReg t n k _ => (s.team? t).bind fun x => (x.group? n).bind fun y => (y.slice? k).map fun _ => x.die.val

/-- The granule or register is marked as poisoned. -/
def State.strike (s : State) : EccTarget → State
  | .granule d g => { s with poison := insertNat s.poison (mainAddr d.val (32 * g) / 32) }
  | .shared t g => s.updTeam t fun x => { x with sharedPoison := insertNat x.sharedPoison g }
  | .laneReg t n lane i => s.updSlice t n (lane / 4) fun x => x.mapLanes fun j l =>
      if j.val = lane % 4 then { l with vp := setBit l.vp i true } else l
  | .scalarReg t n k r => s.updSlice t n k fun x => { x with sp := setBit x.sp r.val true }

/-- ECC_ERROR (R360): the error is corrected and counted, or it poisons and is counted. -/
def execEccError (o : EccArgs) (s : State) : Out :=
  .next (if s.eccDie o.target ≠ some o.die.val then s
    else if o.correctable then s.updDie o.die.val fun d => { d with cCorrected := d.cCorrected + 1 }
    else (s.strike o.target).updDie o.die.val fun d => { d with cUncorrected := d.cUncorrected + 1 })

end Sys2Proof.Machine
end

