-- ==== Sys2Proof/Machine/Patch.lean ====
section
/-! DEFINITION. The patch engine (R137 to R140, R248): requests are carried out one after another, each in one step. -/

namespace Sys2Proof.Machine

/-- The range lies wholly inside one text section. -/
def Sections.inText (x : Sections) (off len : Nat) : Bool :=
  (decide (x.text5 ≤ off) && decide (off + len ≤ x.text5 + x.size5)) || (decide (x.text6 ≤ off) && decide (off + len ≤ x.text6 + x.size6))

/-- A page's bytes with new bytes laid over them; both lie at offsets of one object. -/
def overlay (page : List Byte) (pageOff off : Nat) (new : List Byte) : List Byte :=
  page.zipIdx.map fun b =>
    let at' := pageOff + b.2
    if off ≤ at' && at' < off + new.length then new.getD (at' - off) b.1 else b.1

/-- The kernel headers' code-version fields of an object, as ranges of new bytes (R34, R139). -/
def versionFields (x : Sections) (num : Word) : List (Nat × List Byte) :=
  (List.range x.kernels).map fun k => (x.kernelTable + 96 * k + 0x28, toLE 4 num.toNat)

/-- Pages that n bytes at an offset touch. -/
def pagesOf (off n : Nat) : List Nat := (List.range ((off + n - 1) / 4096 - off / 4096 + 1)).map (· + off / 4096)

/-- The status of a request's checks, or its object and new bytes (R248). -/
def State.judgePatch (s : State) (r : PatchReq) : Except Nat (CodeObject × List Byte) :=
  match s.object? r.partition.val r.object with
  | none => .error 0x41
  | some o =>
    if !o.sections.inText r.offset r.length then .error 0x42
    else if 1 < r.flags ∨ r.reserved ≠ 0 ∨ r.offset % 4 ≠ 0 ∨ r.length % 4 ≠ 0 ∨ r.length < 4 ∨ 65536 < r.length then .error 0x43
    else if 2 ^ 57 < r.source.toNat + r.length then .error 0x44
    else
      match s.readGlobal 12 r.partition.val .read r.source.toNat r.length with
      | .error _ => .error 0x44
      | .ok bs => if bs.any (·.2) then .error 0x44 else .ok (o, bs.map (·.1))

/-- Pages of a version with ranges of new bytes laid over them; none when a page cannot be read. -/
def State.newPages (s : State) (o : CodeObject) (v : Version) (ranges : List (Nat × List Byte)) : List Nat → Option (List (Nat × List Byte))
  | [] => some []
  | pg :: r =>
    match s.pageBytes 12 o v pg .patch, s.newPages o v ranges r with
    | .ok bs, some rest => some ((pg, ranges.foldl (fun b x => overlay b (4096 * pg) x.1 x.2) bs) :: rest)
    | _, _ => none

/-- A list of keyed pairs with the new ones in place of those they replace. -/
def replaceKeys {α : Type} (old new : List (Nat × α)) : List (Nat × α) :=
  (old.filter fun x => !new.any (·.1 == x.1)) ++ new

/-- A versioned patch: new frames for the pages that change and those of the kernel headers, their digests, and the new
version made current (R138, R139); the status. -/
def State.patchVersioned (s : State) (r : PatchReq) : State × Option Nat :=
  match s.judgePatch r with
  | .error e => (s, some e)
  | .ok (o, new) =>
    match o.version? o.current with
    | none => (s, some 0x41)
    | some v =>
      let num := o.current + 1
      let x := o.sections
      let pgs := (pagesOf r.offset r.length ++ pagesOf x.kernelTable (96 * x.kernels)).eraseDups
      match s.newPages o v ((r.offset, new) :: versionFields x num) pgs with
      | none => (s, some 0x44)
      | some ps =>
        let w : Version := { num := num, pages := replaceKeys v.pages ps,
                             digests := replaceKeys v.digests (ps.map fun p => (p.1, sha3 p.2)) }
        ((s.updObject o.uid fun c => { c with current := num, versions := c.versions ++ [w] }).freeVersions, some 1)

/-- Bytes written to a partition's window by the patch engine (R107); as they were when they meet a fault. -/
def State.patchWrite (s : State) (p : Fin 16) (va : Nat) (bs : List Byte) : State :=
  match s.runs 12 p.val .patchWrite (pageFuel va bs.length) va bs.length with
  | (ts, none) => s.writeRuns ts (clean bs)
  | (_, some _) => s

/-- Address and length of the bytes that an in-place patch of a page writes: the page, and its entry in the page-hash table. -/
def CodeObject.patchRanges (o : CodeObject) (pgs : List Nat) : List (Nat × Nat) :=
  pgs.flatMap fun pg => [(o.addr.toNat + 4096 * pg, 4096), (o.addr.toNat + o.sections.hashes + 32 * pg, 32)]

/-- What stops an in-place patch of pages of an object: the first fault of a write (R107; a page in the patch engine's frame is
judged by the entry of the page whose place it takes, log 56). -/
def State.patchStop (s : State) (o : CodeObject) (pgs : List Nat) : Option (Nat × WalkFault) :=
  (o.patchRanges pgs).findSome? fun r => (s.runs 12 o.partition.val .patchWrite (pageFuel r.1 r.2) r.1 r.2).2

/-- One page of the current version gets new bytes and a new digest: in the patch engine's frame when the page has one, else
in the object itself. -/
def State.patchPage (s : State) (o : CodeObject) (v : Version) (p : Nat × List Byte) : State :=
  if v.pages.any (·.1 == p.1) then
    let f := fun (w : Version) => if w.num = v.num then
        { w with pages := replaceKeys w.pages [p], digests := replaceKeys w.digests [(p.1, sha3 p.2)] } else w
    s.updObject o.uid fun c => { c with versions := c.versions.map f }
  else
    (s.patchWrite o.partition (o.addr.toNat + 4096 * p.1) p.2).patchWrite o.partition
      (o.addr.toNat + o.sections.hashes + 32 * p.1) (toLE 32 (sha3 p.2).toNat)

/-- Every die's text buffer drops pages of an object (R137, R140). -/
def State.dropText (s : State) (o : CodeObject) (pgs : List Nat) : State :=
  { s with dies := s.dies.map fun (d : Die) =>
      { d with text := d.text.filter fun x => !(x.object == o.uid && pgs.contains x.page) } }

/-- The words of plane p's copy of a held clause, as the text stands; none when they cannot be read. -/
def State.copyWords (s : State) (die : Nat) (l : Launch) (b : ClauseBuf) (p : Fin 4) : List Word :=
  match fillCopy (s.rawWord die l) (l.text (Config.generation die)).2.1 (b.planes[0]).length (planeOffset l p b.base.toNat) with
  | .words ws => ws
  | .missing _ => []

/-- Some copy of a held clause lies in a range of the object. -/
def ClauseBuf.inRange (b : ClauseBuf) (l : Launch) (die off len : Nat) : Bool :=
  lanes4.any fun p => (p == 0 || l.hasPlane p) &&
    overlaps ((l.text (Config.generation die)).1 + planeOffset l p b.base.toNat, 4 * (b.planes[0]).length) (off, len)

/-- A clause that a slice holds outlives an in-place patch: the copies that it has not read keep the words of before it
(R140). -/
def State.outlive (s : State) (die : Nat) (l : Launch) (off len : Nat) (b : ClauseBuf) : ClauseBuf :=
  if b.inRange l die off len then
    { b with patched := b.patched + 1
             old := Vector.ofFn fun p =>
               if l.hasPlane p && (b.planes[p]).isEmpty && (b.old[p]).isEmpty then s.copyWords die l b p else b.old[p] }
  else b

/-- The clauses that a team of a patched version holds outlive the patch. -/
def State.outliveTeam (s : State) (o : CodeObject) (off len : Nat) (t : Team) : Team :=
  match s.launch? t.launch with
  | none => t
  | some l =>
    if l.code == o.uid && l.version == o.current then
      t.mapGroups (·.mapSlices fun x => { x with cbuf := x.cbuf.map (s.outlive t.die.val l off len) })
    else t

/-- An in-place patch of the current version (R140) and its status; none while a page that it writes is migrating or is being
collapsed: a replicated one begins its collapse (R107, R112, R137). -/
def State.patchInPlace (s : State) (r : PatchReq) : State × Option Nat :=
  match s.judgePatch r with
  | .error e => (s, some e)
  | .ok (o, new) =>
    match o.version? o.current with
    | none => (s, some 0x41)
    | some v =>
      let pgs := pagesOf r.offset r.length
      match s.newPages o v [(r.offset, new)] pgs, s.patchStop o pgs with
      | none, _ => (s, some 0x44)
      | some _, some (va, .collapse) => (s.beginCollapse 12 o.partition va, none)
      | some _, some (_, .parked) => (s, none)
      | some _, some _ => (s, some 0x44)
      | some ps, none =>
        let keep := s.outliveTeam o r.offset r.length
        let s1 : State := { s with teams := s.teams.map keep, images := s.images.map fun i =>
          { i with teams := i.teams.map fun t => (keep t.1, t.2) } }
        ((ps.foldl (fun (s : State) p => s.patchPage o v p) s1).dropText o pgs, some 1)

/-- The oldest request is carried out when its flag calls for this kind, and its status word is written (R138, R248,
R413). -/
def State.runPatch (s : State) (inPlace : Bool) (f : State → PatchReq → State × Option Nat) : State :=
  match s.patches with
  | [] => s
  | r :: rest =>
    if (r.flags % 2 == 1) != inPlace then s
    else
      match f s r with
      | (s1, none) => s1
      | (s1, some status) =>
        ({ s1 with patches := rest }.writeRecord 12 r.partition.val (r.desc.toNat + 0x1C) (toLE 4 status)).1

/-- PATCH_VERSIONED (R139). -/
def execPatchVersioned (s : State) : Out := .next (s.runPatch false State.patchVersioned)
/-- PATCH_IN_PLACE (R140). -/
def execPatchInPlace (s : State) : Out := .next (s.runPatch true State.patchInPlace)

end Sys2Proof.Machine
end

