-- ==== Sys2Proof/Machine/Manage.lean ====
section
/-! DEFINITION. Management commands (R405, R406) that write registers, pools and queues of the package, and their answers. The
resets stand in Reset.lean, drained clusters and held groups in Cluster.lean. -/

namespace Sys2Proof.Machine

/-! Answers. -/

/-- An answer to a command: it is stamped by far die 12, belongs to no partition's stream, and goes to the command's sender on
the session of the port that carried it (R80, R392, R405). -/
def State.answerFor (s : State) (c : MgmtCmd) (status : Nat) (detail : DWord) : State :=
  let s1 := s.tick 12
  let e : Event :=
    { code := 9, partition := c.partition, reason := BitVec.ofNat 8 status, tag := c.tag, detail := detail,
      counter := (s1.die 12).counter, lost := 0 }
  { s1 with answers := s1.answers ++ [{ dest := c.source, session := some c.port, event := e }] }

/-- The answer to the command that is being carried out; no rule gives its detail (log 34). -/
def State.answer (s : State) (status : Nat) : State :=
  { s with free := s.free + 1 }.answerFor s.mgmt status (Config.eventValue s.free)

def outOfRange : Nat := 0x62
def refusedByRule : Nat := 0x61

/-- A command is carried out: nothing changes but the answer when it is refused. -/
def State.command (s : State) (f : MgmtCmd → Except Nat State) : State :=
  if !allZero s.mgmt.tail then s.answer outOfRange
  else
    match f s.mgmt with
    | .error e => s.answer e
    | .ok s1 => s1.answer 0

/-- The command's partition. -/
def forPart (c : MgmtCmd) (k : Fin 16 → Except Nat State) : Except Nat State :=
  if h : c.partition.toNat < 16 then k ⟨c.partition.toNat, h⟩ else .error outOfRange

/-- The command's compute die, which must be live. -/
def State.computeDie (s : State) (c : MgmtCmd) (k : Fin 8 → Except Nat State) : Except Nat State :=
  if h : c.die.toNat < 8 then (if (s.die c.die.toNat).live then k ⟨c.die.toNat, h⟩ else .error outOfRange) else .error outOfRange

/-- What a command does unless a condition stops it with a status. -/
def unless' (bad : Bool) (status : Nat) (k : Except Nat State) : Except Nat State := if bad then .error status else k

/-- Bits of a value outside the given fields (position, width) are set. -/
def otherBits (v : DWord) (fields : List (Nat × Nat)) : Bool :=
  (fields.foldl (fun (x : DWord) f => setBits x f.1 f.2 0) v) != 0

/-! Access control, partitions, rings. -/

/-- ACCESS_CONTROL_ENTRY_WRITE (R71, R72). -/
def execAccessControlEntryWrite (s : State) : Out :=
  .next (s.command fun c =>
    unless' (otherBits c.operand0 [(0, 48), (52, 4), (62, 2)] || decide (256 ≤ c.operand1.toNat)) outOfRange
      (.ok { s with acl := updV s.acl c.operand1.toNat fun _ => c.operand0 }))

/-- Descriptors of the enabled partitions once partition p has descriptor d. -/
def State.descriptorsWith (s : State) (p : Nat) (d : DWord) : List DWord :=
  ((List.range 16).map fun i => if i = p then d else (s.part i).descriptor).filter fun d => bit d 63

/-- The refusals of R73. -/
def State.descriptorRefused (s : State) (p : Nat) (d : DWord) : Bool :=
  let ds := s.descriptorsWith p d
  decide ((ds.map fun d => bits d 24 8).sum > 128) || decide ((ds.map fun d => bits d 12 12).sum > s.budget) ||
  anyOverlap ((ds.map fun d => (bits d 40 8, bits d 32 8)).filter (·.2 != 0))

/-- PARTITION_DESCRIPTOR_WRITE (R73). -/
def execPartitionDescriptorWrite (s : State) : Out :=
  .next (s.command fun c => forPart c fun p =>
    let d := c.operand0
    unless' (otherBits d [(12, 44), (63, 1)] || decide (bits d 24 8 > 128) || decide (bits d 40 8 + bits d 32 8 > 256)) outOfRange
      (unless' (s.descriptorRefused p.val d) refusedByRule (.ok (s.updPart p.val fun x => { x with descriptor := d }))))

/-- PARTITION_CONTROL_WRITE (R247). -/
def execPartitionControlWrite (s : State) : Out :=
  .next (s.command fun c => unless' (otherBits c.operand0 [(0, 32)]) outOfRange (.ok { s with control := c.operand0 }))

/-- A ring register's value is refused: sizes 1 to 3 and 17 to 31 (R349, R393). -/
def ringRefused (v : DWord) : Bool := (decide (1 ≤ bits v 0 5) && decide (bits v 0 5 ≤ 3)) || decide (17 ≤ bits v 0 5)

/-- A ring register's write. -/
def State.ringWrite (s : State) (f : DWord → Partition → Partition) : State :=
  s.command fun c => forPart c fun p =>
    unless' (otherBits c.operand0 [(0, 5), (12, 45)]) outOfRange
      (unless' (ringRefused c.operand0) refusedByRule (.ok (s.updPart p.val (f c.operand0))))

/-- FAULT_RING_WRITE (R349). -/
def execFaultRingWrite (s : State) : Out := .next (s.ringWrite fun v x => { x with faultRing := v })
/-- TRACE_RING_WRITE (R393). -/
def execTraceRingWrite (s : State) : Out := .next (s.ringWrite fun v x => { x with traceRing := v })

/-! Memory. -/

/-- Bytes of a die's scratchpad zeroed, without poison. -/
def State.zeroScratch (s : State) (d start stop : Nat) : State :=
  { s with mem := s.mem.zero (mainAddr d start) (stop - start),
           poison := s.poison.filter fun g => !(decide (mainAddr d start ≤ 32 * g) && decide (32 * g < mainAddr d start + (stop - start))) }

/-- Another partition's allocation on a die overlaps MiB base to base + size - 1 (R103). -/
def State.allocOverlap (s : State) (p d base size : Nat) : Bool :=
  (List.range 16).any fun q =>
    let r := atV (s.part q).scratch d 0
    q != p && bits r 16 16 != 0 && size != 0 && overlaps (base, size) (bits r 32 16, bits r 16 16)

/-- SCRATCHPAD_ALLOCATION_WRITE (R103): bytes that come into the allocation read 0. -/
def execScratchpadAllocationWrite (s : State) : Out :=
  .next (s.command fun c => forPart c fun p => s.computeDie c fun d =>
    let base := bits c.operand0 32 16
    let size := bits c.operand0 16 16
    let old := s.allocation p.val d.val
    let first := 2 ^ 20 * base
    let last := 2 ^ 20 * (base + size)
    unless' (otherBits c.operand0 [(16, 32)]) outOfRange
      (unless' (decide (base + size > Config.scratchMiB d.val) || s.allocOverlap p.val d.val base size ||
          s.teams.any fun t => t.partition == p && t.die == d) refusedByRule
        (.ok (((s.zeroScratch d.val first (min last old.1)).zeroScratch d.val (max first (old.1 + old.2)) last).updPart p.val fun x =>
          { x with scratch := x.scratch.set d c.operand0 }))))

/-- ROOT_TABLE_WRITE (R104). -/
def execRootTableWrite (s : State) : Out :=
  .next (s.command fun c => forPart c fun p =>
    unless' (otherBits c.operand0 [(0, 1), (12, 36)]) outOfRange (.ok (s.updPart p.val fun x => { x with root := c.operand0 })))

/-- n bytes of a partition's window read for a command, which refuses on any fault. -/
def State.commandRead (s : State) (p : Fin 16) (a : DWord) (n : Nat) (k : List Byte → Except Nat State) : Except Nat State :=
  if 2 ^ 57 < a.toNat + n then .error refusedByRule
  else
    match s.readGlobal 12 p.val .read a.toNat n with
    | .error _ => .error refusedByRule
    | .ok bs => k (bs.map (·.1))

/-- Bytes written to a partition's window for a command. -/
def State.commandWrite (s : State) (p : Fin 16) (a : DWord) (bs : List Byte) : Except Nat State :=
  if 2 ^ 57 < a.toNat + bs.length then .error refusedByRule
  else
    match s.writeGlobal 12 p.val a.toNat (clean bs) with
    | .error _ => .error refusedByRule
    | .ok s1 => .ok s1

/-- The key-base slot of a partition is loaded. -/
def State.keyed (s : State) (p : Fin 16) : Bool := (s.keyIn p.val (bits (s.part p.val).descriptor 40 8)).isSome

/-- Tables and pages as they stand, for the load of a first key (log 48). -/
def State.unkeyed (s : State) : State := { s with keys := Vector.replicate 256 (some 0), tags := [] }

/-- The bytes of a key; no key fault stops them while the key-base slot is not loaded (log 48). -/
def State.keyRead (s : State) (p : Fin 16) (a : DWord) (k : List Byte → Except Nat State) : Except Nat State :=
  if s.keyed p then s.commandRead p a 64 k else s.unkeyed.commandRead p a 64 k

/-- The bytes of a key zeroed. -/
def State.keyZero (s : State) (p : Fin 16) (a : DWord) : Except Nat State :=
  if s.keyed p then s.commandWrite p a (List.replicate 64 0)
  else
    match s.unkeyed.runs 12 p.val .write (pageFuel a.toNat 64) a.toNat 64 with
    | (ts, none) => .ok (s.writeRuns (ts.map fun t => ({ t.1 with key := none }, t.2)) (clean (List.replicate 64 0)))
    | (_, some _) => .error refusedByRule

/-- KEY_SLOT_LOAD (R111, R405): the slot takes 64 bytes, which are then zeroed. -/
def execKeySlotLoad (s : State) : Out :=
  .next (s.command fun c => forPart c fun p =>
    let d := (s.part p.val).descriptor
    let n := c.operand1.toNat
    unless' (decide (256 ≤ n)) outOfRange
      (unless' (decide (n < bits d 40 8) || decide (bits d 40 8 + bits d 32 8 ≤ n)) refusedByRule
        (s.keyRead p c.operand0 fun bs =>
          match s.keyZero p c.operand0 with
          | .error e => .error e
          | .ok s1 => .ok { s1 with keys := updV s1.keys n fun _ => some (BitVec.ofNat 512 (fromLE bs)) })))

/-- INVALIDATE_RANGE (R108, R359): cached translations go, and accesses parked in the range replay. -/
def execInvalidateRange (s : State) : Out :=
  .next (s.command fun c => forPart c fun p =>
    .ok ((s.uncache p.val c.operand0.toNat c.operand1.toNat).serve (p, c.operand0.toNat, c.operand1.toNat)))

/-- SPLINTER_POOL_SET (R116). -/
def execSplinterPoolSet (s : State) : Out :=
  .next (s.command fun c => forPart c fun p =>
    let n := c.operand1.toNat
    unless' (decide (n > 4096) || c.operand0.toNat % 8 != 0 || decide (2 ^ 57 ≤ c.operand0.toNat)) outOfRange
      (s.commandRead p c.operand0 (8 * n) fun bs =>
        .ok (s.updPart p.val fun x =>
          { x with splinter := (List.range n).map fun i => BitVec.ofNat 64 (leAt bs (8 * i) 8) })))

/-! Swap pools and policies. -/

/-- SWAP_POLICY_SET (R99). -/
def execSwapPolicySet (s : State) : Out :=
  .next (s.command fun c => forPart c fun p =>
    unless' (decide (c.operand0.toNat > 1)) outOfRange
      (.ok (s.updPart p.val fun x => { x with swapPolicy := BitVec.ofNat 8 c.operand0.toNat, swapInterval := c.operand1 })))

/-- SWAP_POOL_SET (R100). -/
def execSwapPoolSet (s : State) : Out :=
  .next (s.command fun c => forPart c fun p =>
    let n := c.operand1.toNat
    unless' (decide (n > 4096) || c.operand0.toNat % 2 ^ 20 != 0 || decide (2 ^ 57 ≤ c.operand0.toNat)) outOfRange
      (unless' (((s.part p.val).poolBase != c.operand0 || (s.part p.val).poolSlots != n) &&
          s.images.any fun i => i.partition == p && i.slot.isSome) refusedByRule
        (.ok (s.updPart p.val fun x => { x with poolBase := c.operand0, poolSlots := n }))))

/-! The package. -/

/-- CORE_RETIRE_GRANT_SET (R251). -/
def execCoreRetireGrantSet (s : State) : Out :=
  .next (s.command fun c => s.computeDie c fun d =>
    unless' (otherBits c.operand0 [(0, 1)]) outOfRange (.ok (s.updDie d.val fun x => { x with grant := bit c.operand0 0 })))

/-- POWER_LIMIT_SET (R404): refused when the budget would fall below the enabled partitions' token shares; a budget below the
tokens in use stops admission. -/
def execPowerLimitSet (s : State) : Out :=
  .next (s.command fun c =>
    let w := c.operand0.toNat
    let shares := ((s.partitions.toList.filter Partition.enabled).map fun x => bits x.descriptor 12 12).sum
    unless' (decide (w < 1500) || decide (w > 6000)) outOfRange
      (unless' (decide (w * 7680 / 6000 < shares)) refusedByRule 
        (.ok { s with powerLimit := w, overBudget := decide (w * 7680 / 6000 < s.tokensOf s.holders) })))

/-- The counter that op 0x12 names (R406). -/
def State.counter? (s : State) (c : MgmtCmd) : Option DWord :=
  let p := s.part c.partition.toNat
  let d := s.die c.die.toNat
  let ofPart := fun (v : DWord) => if c.partition.toNat < 16 then some v else none
  let ofDie := fun (v : DWord) => if c.die.toNat < 14 ∧ d.live then some v else none
  match bits c.operand0 0 16 with
  | 0x01 => s.malformed[c.operand1.toNat]?
  | 0x02 => some s.unmatched
  | 0x03 => ofPart p.cDiscarded
  | 0x04 => ofPart p.cEpoch
  | 0x05 => ofPart p.cWaiting
  | 0x06 => ofPart p.cCollapse
  | 0x07 => if c.die.toNat < 8 then ofDie d.cPuts else none
  | 0x08 => ofPart p.cCurd
  | 0x09 => ofPart p.cReplay
  | 0x0A => ofDie d.cCorrected
  | 0x0B => ofDie d.cUncorrected
  | 0x0C => ofDie d.cStale
  | 0x0D => ofPart p.cDropped
  | 0x0E => ofPart p.cRecords
  | _ => none

/-- COUNTER_READ (R406): the answer's detail is the counter. -/
def execCounterRead (s : State) : Out :=
  .next (match if allZero s.mgmt.tail then s.counter? s.mgmt else none with
    | none => s.answer outOfRange
    | some v => s.answerFor s.mgmt 0 v)

/-- Capability words of the compute dies (R402). -/
def State.capabilities (s : State) : List Word := dies8.map fun d => (s.die d.val).capability

/-- ATTESTATION_REPORT (R403): the nonce is read, and a report that depends on it, on the measurement log and on the capability
words is written; its bytes are free (log 9). -/
def execAttestationReport (s : State) : Out :=
  .next (s.command fun c => forPart c fun p => s.commandRead p c.operand0 32 fun nonce =>
    let s1 := { s with free := s.free + 1 }
    let n := Config.reportLength s.measured.length s.capabilities.length
    s1.commandWrite p c.operand1 ((List.range n).map
      (Config.reportByte (s.identity.getD 0) s.measured nonce s.capabilities s.free)))

/-- THERMAL_RESUME (R26): clocks are restored and admission resumes. -/
def execThermalResume (s : State) : Out :=
  .next (s.command fun _ => .ok { s with tripped := false, dies := s.dies.map fun (d : Die) => { d with lowered := false } })

/-- JOURNAL_CLEAR (R401). -/
def execJournalClear (s : State) : Out := .next (s.command fun _ => .ok { s with journal := [] })

/-- OWNER_ENDPOINT_CHANGE (R405). -/
def execOwnerEndpointChange (s : State) : Out :=
  .next (s.command fun c => unless' (otherBits c.operand0 [(0, 32)]) outOfRange (.ok { s with owner := lowWord c.operand0 }))

/-- DIE_OUT_OF_SERVICE (R27, R405): effective at the next start. -/
def execDieOutOfService (s : State) : Out :=
  .next (s.command fun c =>
    unless' (decide (c.die.toNat ≥ 8)) outOfRange (.ok { s with outOfService := setBit s.outOfService c.die.toNat true }))

/-! Engines. -/

/-- PATCH_SUBMIT (R138, R248). -/
def execPatchSubmit (s : State) : Out :=
  .next (s.command fun c => forPart c fun p =>
    unless' (c.operand0.toNat % 32 != 0 || decide (2 ^ 57 ≤ c.operand0.toNat)) outOfRange
      (s.commandRead p c.operand0 32 fun bs =>
        let r : PatchReq :=
          { partition := p, die := 12, desc := c.operand0, object := BitVec.ofNat 64 (leAt bs 0 8), offset := leAt bs 8 4,
            length := leAt bs 12 4, source := BitVec.ofNat 64 (leAt bs 16 8), flags := leAt bs 24 2, reserved := leAt bs 26 2 }
        .ok { s with patches := s.patches ++ [r] }))

/-- The 48-byte command that op 0x18 carries from byte 0x08 on (R118, R405). -/
def migrationOf (c : MgmtCmd) : MigCmd :=
  { op := bits c.operand0 0 16, partition := bits c.operand0 16 8, target := bits c.operand0 24 8, permissions := bits c.operand0 32 32,
    start := c.operand1, length := BitVec.ofNat 64 (leAt c.tail 0 8), dest := BitVec.ofNat 64 (leAt c.tail 8 8),
    completion := BitVec.ofNat 64 (leAt c.tail 16 8), reserved := BitVec.ofNat 64 (leAt c.tail 24 8) }

/-- MIGRATION_SUBMIT (R118): the command joins the queue of the far die that the die field names. -/
def execMigrationSubmit (s : State) : Out :=
  .next (if !allZero (s.mgmt.tail.drop 32) || (s.mgmt.die != 12 && s.mgmt.die != 13) then s.answer outOfRange
    else
      let d := s.mgmt.die.toNat
      let s1 := s.msg 12 d
      { s1 with migrations := updV s1.migrations (d - 12) fun l => l ++ [migrationOf s.mgmt] }.answer 0)

/-- UNKNOWN_OP (R405). -/
def execUnknownOp (s : State) : Out := .next (s.answer 0x63)

end Sys2Proof.Machine
end

