-- ==== Sys2Proof/Machine/Select.lean ====
section
/-! DEFINITION. Which gang of a sub-core issues next (R179 to R182). -/

namespace Sys2Proof.Machine

/-! Sub-cores. -/

def State.sub (s : State) (d : Fin 8) (c : Nat) (k : Fin 4) : SubCore :=
  match s.subs.find? fun x => x.die == d && x.core == c && x.sub == k with
  | some x => x
  | none => { die := d, core := c, sub := k, n := 0, ptr := (0, 0), nextStart := 0, due := false }

def State.updSub (s : State) (d : Fin 8) (c : Nat) (k : Fin 4) (f : SubCore → SubCore) : State :=
  { s with subs := f (s.sub d c k) :: s.subs.filter fun x => !(x.die == d && x.core == c && x.sub == k) }

/-! Readiness (R179). -/

/-- Every flag in the wait mask of the clause that the gang is to start is clear in its slices. -/
def waitClear (ms : List (Group × Slice)) : Bool :=
  ms.all fun m => m.2.inClause || match m.2.wordAt 0 with
    | some w => m.2.f &&& BitVec.ofNat 12 (bits w 11 12) == 0
    | none => true

/-- The slice holds its gang back no longer: it is free, or stays parked while others of the gang go on with their access
(R359). -/
def Slice.willing (x : Slice) : Bool := x.free || (x.isParked && ({ x with hold := .none } : Slice).free)

/-- A gang is ready, but for a yield that may put it off: no slice waits or is held, and one has something to do. -/
def Team.readyBut (t : Team) (l : Launch) (gang : Nat) : Bool :=
  let ms := t.members gang
  !t.frozen && ms.any (fun m => m.2.free && !m.2.sdone) && ms.all (fun m => m.1.started && !m.1.drained && m.2.willing) &&
  !t.needsFill l gang && waitClear ms

/-- A yield puts the gang off (R182). -/
def Team.putOff (t : Team) (gang : Nat) : Bool := (t.members gang).any fun m => m.2.defer != 0

/-- A gang of a sub-core with what decides its turn (R180). -/
structure Cand where
  team : Nat
  gang : Nat
  entry : Nat
  num : Nat
  priority : Nat
  age : Nat
  lanePos : Nat
  deriving DecidableEq, Repr

/-- Gangs of a team, each once. -/
def Team.gangs (t : Team) : List Nat := (t.groups.flatMap Group.gangs).eraseDups

/-- Gangs of a sub-core that are ready but for yields. -/
def State.cands (s : State) (d : Fin 8) (c : Nat) (k : Fin 4) : List (Cand × Bool) :=
  (s.teams.filter fun t => t.die == d && t.core == c).flatMap fun t =>
    match s.launch? t.launch with
    | none => []
    | some l => t.gangs.filterMap fun q =>
        match t.members q with
        | [] => none
        | m :: ms =>
          if m.1.place.sub = k && t.readyBut l q then
            some ({ team := t.uid, gang := q, entry := m.1.place.entry, num := m.2.num, priority := l.priority.val,
                    age := ms.foldl (fun a x => min a x.1.place.start) m.1.place.start,
                    lanePos := m.1.place.lanePos + 4 * m.2.num }, t.putOff q)
          else none

/-- The ready gangs of a sub-core. -/
def State.ready (s : State) (d : Fin 8) (c : Nat) (k : Fin 4) : List Cand :=
  ((s.cands d c k).filter fun x => !x.2).map (·.1)

/-! The choice (R180). -/

/-- a issues before b by priority, age and lane position. -/
def Cand.before (a b : Cand) : Bool :=
  if a.priority ≠ b.priority then decide (b.priority < a.priority)
  else if a.age ≠ b.age then decide (a.age < b.age)
  else decide (a.lanePos < b.lanePos)

/-- Position order. -/
def posLt (a b : Nat × Nat) : Bool := decide (a.1 < b.1) || (a.1 == b.1 && decide (a.2 < b.2))

def Cand.pos (a : Cand) : Nat × Nat := (a.entry, a.num)

/-- The element that comes first under an order. -/
def firstBy (lt : Cand → Cand → Bool) : List Cand → Option Cand
  | [] => none
  | a :: r => some (r.foldl (fun b x => if lt x b then x else b) a)

/-- The first ready gang in cyclic order after the turn pointer. -/
def cyclic (ptr : Nat × Nat) (cs : List Cand) : Option Cand :=
  let lt := fun (a b : Cand) => posLt a.pos b.pos
  (firstBy lt (cs.filter fun c => posLt ptr c.pos)).or (firstBy lt cs)

/-- The next issue of the sub-core is a round-robin turn. -/
def SubCore.turn (x : SubCore) : Bool := x.due || (x.n + 1) % 64 == 0

/-- The gang that issues, of those that are ready at the opportunity. -/
def SubCore.pick (x : SubCore) (cs : List Cand) : Option Cand := if x.turn then cyclic x.ptr cs else firstBy Cand.before cs

/-- ROUND_ROBIN_TURN (R180): the sub-core's next issue is a turn. The gang is chosen at the opportunity, among those that are
ready then. -/
def execRoundRobinTurn (o : SubRef) (s : State) : Out :=
  .next (if (s.sub o.die o.core o.sub).turn then s.updSub o.die o.core o.sub fun x => { x with due := true } else s)

/-- The yields of every gang of a sub-core end. -/
def State.endYields (s : State) (d : Fin 8) (c : Nat) (k : Fin 4) : State :=
  { s with teams := s.teams.map fun t =>
      if t.die == d && t.core == c && !t.frozen then
        t.mapGroups fun g => if g.place.sub = k then g.mapSlices (fun x => { x with defer := 0 }) else g
      else t }

/-- YIELD_DEFERRAL_END (R182): an opportunity at which no gang of the sub-core is ready ends every deferral there. -/
def execYieldDeferralEnd (o : GangRef) (s : State) : Out :=
  .next (match s.team? o.team with
    | none => s
    | some t =>
      match (t.members o.gang).head? with
      | none => s
      | some m => if (s.ready t.die t.core m.1.place.sub).isEmpty then s.endYields t.die t.core m.1.place.sub else s)

/-- A team after n issues of sub-core k of its core: yields of its gangs there come nearer to their end (R182). -/
def Team.passIssues (t : Team) (k : Fin 4) (n : Nat) : Team :=
  t.mapGroups fun g => if g.place.sub = k then g.mapSlices (fun x => { x with defer := x.defer - n }) else g

/-- The issues of a sub-core count: n of them have been made, by the gang at position p (R180, R182). -/
def State.countIssues (s : State) (d : Fin 8) (c : Nat) (k : Fin 4) (n : Nat) (p : Nat × Nat) : State :=
  let s1 := { s with teams := s.teams.map fun (t : Team) => if t.die == d && t.core == c then t.passIssues k n else t }
  s1.updSub d c k fun x =>
    { x with n := x.n + n, ptr := if x.turn then p else x.ptr,
             due := (List.range (n - 1)).any fun i => (x.n + 2 + i) % 64 == 0 }

end Sys2Proof.Machine
end

