-- ==== Sys2Proof/Machine/TileOps.lean ====
section
/-! DEFINITION. Tiles: the clock commands of TCLK (R249, R250, R371 to R379), the scan test (R383 to R385), and the swaps of the
die scheduler (R99, R100, R380). -/

namespace Sys2Proof.Machine

/-! Images (R373, R374). What their scan-state bits stand for is kept in State.images; the bits are free values. -/

/-- n free bytes (log 8). -/
def scanBytes (k n : Nat) : List Byte := (List.range n).map (Config.scanState k)

/-- Word i of the lane at a lane position of a row's groups; 0 where no group stands. -/
def rowWord (gs : List Group) (i pos : Nat) : Word :=
  match gs.find? fun g => decide (g.place.lanePos ≤ pos) && decide (pos < g.place.lanePos + g.width) with
  | none => 0
  | some g =>
    match g.slice? ((pos - g.place.lanePos) / 4) with
    | some x => (x.lane (Fin.ofNat 4 (pos - g.place.lanePos))).get i
    | none => 0

/-- The register rows of a team, at B × 128 bytes per row. -/
def Team.rowBytes (t : Team) : List Byte :=
  let keys := (t.groups.map fun g => (g.place.sub, g.place.base)).eraseDups
  keys.flatMap fun k =>
    let gs := t.groups.filter fun g => (g.place.sub, g.place.base) == k
    (List.range ((gs.map (·.budget)).headD 0)).flatMap fun i => (List.range 32).flatMap fun pos => toLE 4 (rowWord gs i pos).toNat

/-- A list padded with zeros to a multiple of 4 KiB. -/
def padPage (b : List Byte) : List Byte := b ++ List.replicate ((4096 - b.length % 4096) % 4096) 0

/-- A team's section: 4 KiB of scan state (log 8), register rows, shared memory. -/
def State.section (s : State) (k : Nat) (t : Team) : List Byte :=
  padPage (scanBytes k 4096 ++ t.rowBytes ++ t.shared.read 0 (s.bound t .shared))

/-- An entry of the team directory (R374). -/
def dirEntry (off size : Nat) (t : Team) (epoch : BitVec 4) : List Byte :=
  toLE 4 off ++ toLE 4 size ++ toLE 4 t.lin ++ toLE 1 t.partition.val ++ toLE 1 epoch.toNat ++ toLE 1 t.groups.length ++ toLE 1 0

/-- The directory entries of sections that begin at an offset. -/
def dirEntries : Nat → List (Team × BitVec 4 × List Byte) → List Byte
  | _, [] => []
  | off, (t, e, b) :: r => dirEntry off b.length t e ++ dirEntries (off + b.length) r

/-- Counts of a save (R373). -/
structure SaveCounts where
  counter : BitVec 48
  outstanding : Nat
  folded : Nat
  lost : Nat
  stale : Nat
  deriving DecidableEq, Repr

/-- Teams with their partitions' epochs. -/
def State.withEpochs (s : State) (ts : List Team) : List (Team × BitVec 4) := ts.map fun t => (t, (s.part t.partition.val).epoch)

/-- Teams with the free count that their section's scan state takes. -/
def State.sections (s : State) (ts : List (Team × BitVec 4)) : List (Team × BitVec 4 × List Byte) :=
  ts.zipIdx.map fun x => (x.1.1, x.1.2, s.section (s.free + x.2) x.1.1)

/-- Everything after an image's header: the sections, and the whey section last (log 8). -/
def State.imageBody (s : State) (ts : List (Team × BitVec 4)) : List Byte :=
  ((s.sections ts).flatMap fun x => x.2.2) ++ scanBytes (s.free + ts.length) 16384

/-- The header of an image of die d with a given body (R373). -/
def State.imageHeader (s : State) (d : Nat) (ts : List (Team × BitVec 4)) (c : SaveCounts) (body : List Byte) : List Byte :=
  let dir := dirEntries 4096 (s.sections ts)
  toLE 4 0x474D495A ++ toLE 2 1 ++ toLE 1 (Config.generation d) ++ toLE 1 (s.die d).revision.toNat ++ toLE 4 (4096 + body.length) ++
  toLE 2 (2 ^ ts.length - 1) ++ toLE 1 d ++ toLE 1 0 ++ toLE 8 c.counter.toNat ++ toLE 4 c.outstanding ++ toLE 4 c.folded ++
  toLE 4 c.lost ++ toLE 4 c.stale ++ toLE 8 0 ++ toLE 32 (sha3 body).toNat ++ dir ++ List.replicate (256 - dir.length) 0 ++
  List.replicate 3760 0

/-- An image of teams of die d written to a global address of a partition, and its entry; none when the write meets a
fault. -/
def State.writeImage (s : State) (d : Nat) (p : Fin 16) (addr : DWord) (slot : Option Nat) (ts : List (Team × BitVec 4))
    (subs : List SubCore) (c : SaveCounts) : Option State :=
  let body := s.imageBody ts
  if 2 ^ 57 < addr.toNat + 4096 + body.length then none
  else
    match s.writeGlobal d p.val addr.toNat (clean (s.imageHeader d ts c body ++ body)) with
    | .error _ => none
    | .ok s1 =>
      let i : Image := { partition := p, addr := addr, slot := slot, digest := sha3 body, generation := Config.generation d,
                         revision := (s.die d).revision, counter := c.counter, teams := ts, subs := subs, live := true }
      some { s1 with images := s1.images ++ [i], free := s1.free + ts.length + 1 }

/-- A write of n bytes by die d that has met a replicated page begins its collapse (R112). -/
def State.collapseFor (s : State) (d : Nat) (p : Fin 16) (va n : Nat) : State :=
  match (s.runs d p.val .write (pageFuel va n) va n).2 with
  | some (a, .collapse) => s.beginCollapse d p a
  | _ => s

/-! Requests outstanding, and the responses that a stopped tile's whey takes (R376 to R378). -/

/-- The requests of an operation that are outstanding, by their places: accesses or chunks, then reads ahead. -/
def Op.requests (o : Op) : List Nat :=
  if o.returned then []
  else
    let sent := match o.job with
      | .access _ parts _ => parts.map (·.sent)
      | j => j.chunks.map (·.sent)
    ((sent ++ o.early.map (·.bytes.isNone)).zipIdx.filter (·.1)).map (·.2)

/-- The requests of a team that are outstanding. -/
def Team.requests (t : Team) : List WheyRef :=
  t.groups.flatMap fun g =>
    (g.ops.flatMap fun o => o.requests.map fun k =>
      WheyRef.response { team := t.uid, group := g.num, op := o.id, pick := k }) ++
    ((g.slices.filter (·.asked)).map fun x => .wait t.uid g.num x.num)

/-- A granule read ahead arrives. -/
def State.catchEarly (s : State) (t : Team) (g : Group) (o : Op) (k : Nat) : Option (State × Whey) :=
  (o.early[k]?).bind fun e =>
    if e.bytes.isSome then none
    else some (s.updOp t.uid g.num o.id fun o => { o with early := o.early.eraseIdx k },
               .ahead t.uid g.num o.id { e with bytes := some (s.readSpot t g 32 e.spot) })

/-- A chunk's response arrives: bytes for the tile wait in the whey, others have been written where they go. -/
def State.catchChunk (s : State) (t : Team) (g : Group) (o : Op) (c : Chunk) (k : Nat) : State × Whey :=
  let r := s.chunkBytes t g o c
  let s1 := r.1.updOp t.uid g.num o.id fun o => { o with job := o.job.dropChunk k }
  if (c.dst.server t).isSome then
    (s1.writeSpot t.uid g.num r.2 c.dst, .granule t.uid g.num o.id { c with n := 0, src := .data [] })
  else (s1, .granule t.uid g.num o.id { c with src := .data r.2 })

/-- The response to request k of an operation arrives for a tile that does not run: what it does elsewhere is done, and what it
brings back stands in an entry. -/
def State.catchOp (s : State) (t : Team) (g : Group) (o : Op) (k : Nat) : Option (State × Whey) :=
  if o.returned then none
  else
    match o.job with
    | .access ord parts w =>
      match parts[k]? with
      | none => s.catchEarly t g o (k - parts.length)
      | some p =>
        if !p.sent then none
        else
          let r := s.doPart t.uid g.num o.id p
          some (r.1.updOp t.uid g.num o.id fun o => { o with job := .access ord (parts.eraseIdx k) w }, .value t.uid g.num o.id r.2)
    | j =>
      match j.chunks[k]? with
      | none => s.catchEarly t g o (k - j.chunks.length)
      | some c => if c.sent then some (s.catchChunk t g o c k) else none

/-- The answer to a value wait's read arrives. -/
def State.catchWait (s : State) (t : Team) (g : Group) (x : Slice) : Option (State × Whey) :=
  match x.asked, x.waitsValue with
  | true, some w =>
    let s1 := s.updSlice t.uid g.num x.num fun y => { y with asked := false }
    match s.locate t g false .read (x.getPair w.2.a) w.2.t.bytes with
    | .place p =>
      let bs := s1.readSpot t g w.2.t.bytes p
      some (s1.visit t.die.val p, .wait t.uid g.num x.num (valueOf bs) (valueWrites w.2.t (scalarDst x.num w.2.t w.2.d) bs))
    | _ => some (s1, .wait t.uid g.num x.num 0 [])
  | _, _ => none

/-- A response that a request of a team expects. -/
def State.catchRef (s : State) (w : WheyRef) : Option (State × Whey) :=
  match w with
  | .response r => (s.opAt r.team r.group r.op).bind fun x => s.catchOp x.1 x.2.1 x.2.2 r.pick
  | .wait uid n k => (s.team? uid).bind fun t => (t.group? n).bind fun g => (g.slice? k).bind fun x => s.catchWait t g x
  | .put _ => none

/-- A value reaches an operation of an image: with its last one the registers are written (R377). -/
def State.foldValue (s : State) (uid n id : Nat) (w : List RegWrite) : State :=
  let s1 := s.updOp uid n id fun o => match o.job with
    | .access ord parts ws => { o with job := .access ord parts (ws ++ w) }
    | _ => o
  match (s1.opAt uid n id).map (·.2.2.job.readyBack) with
  | some true => s1.updGroup uid n (·.returnOp id)
  | _ => s1

/-- A granule is written; with its last one the operation has returned (R377). -/
def State.foldGranule (s : State) (uid n id : Nat) (c : Chunk) : State :=
  let s1 := match c.src with
    | .data bs => s.writeSpot uid n bs c.dst
    | .mem _ => s
  match (s1.opAt uid n id).bind fun x => x.2.2.job.ending with
  | some (.fault f) => s1.finishOp uid n id (some f)
  | some _ => s1.finishOp uid n id none
  | none => s1

/-- A value wait's value reaches its register, and ends the slice's wait when its condition holds (R284, R377). -/
def Group.foldWait (g : Group) (k v : Nat) (w : List RegWrite) : Group :=
  let poisoned := w.any fun r => match r with
    | .scalar _ _ _ p => p
    | .lane _ _ _ _ p => p
  (w.foldl (fun (g : Group) r => r.apply g) g).updSlice k fun x => match x.waitsValue with
    | some q => if !w.isEmpty && !poisoned && waitHolds q.2 q.1 x v then { x with hold := .none, sdone := true } else x
    | none => x

/-- The rest of an admitted put lands; bytes that are not there yet, or that another landing comes before, are held (R376,
R377). -/
def State.foldPut (s : State) (id : Nat) : State :=
  match s.landing? id with
  | none => s
  | some x => (s.putAll x (x.parts.length + 2)).updLanding id fun y => { y with admitted := false, held := true }

/-- One whey entry folded (R377). -/
def State.foldWhey (s : State) : Whey → State
  | .value t g k w => s.foldValue t g k w
  | .wait t g k v w => s.updGroup t g (·.foldWait k v w)
  | .granule t g k c => s.foldGranule t g k c
  | .ahead t g k e => s.updOp t g k fun o => { o with early := o.early ++ [e] }
  | .put id => s.foldPut id

/-- Every request of a team is answered at once, and its admitted put lands, for a swap; fuel bounds the requests. -/
def State.answerTeam (s : State) (uid : Nat) : Nat → State
  | 0 => (s.landings.filter fun x => x.admitted && x.team == some uid).foldl (fun (s : State) x => s.foldPut x.id) s
  | fuel + 1 =>
    match (s.team? uid).bind fun t => t.requests.head?.bind s.catchRef with
    | some (s1, w) => (s1.foldWhey w).answerTeam uid fuel
    | none => s.answerTeam uid fuel

/-- Slices whose gang has completed its value wait go on. -/
def Team.endWaits (t : Team) : Team :=
  t.gangs.foldl (fun (t : Team) k =>
    if (t.members k).all (·.2.sdone) then t.mapGang k fun _ x => x.done else t) t

/-- Parked accesses of a group try again. -/
def Group.retry (g : Group) : Group :=
  { g.wakeIf Slice.isParked with ops := g.ops.map fun o => { o with parked := none } }

/-- A team that has become resident again goes on: parked accesses try again, returned operations lower their counters and
flags, and value waits read at once (R378, R379). -/
def State.wake (s : State) (uid : Nat) : State :=
  match s.team? uid with
  | none => s
  | some t =>
    let s1 := s.updTeam uid fun t => (t.mapGroups Group.retry).endWaits
    let s2 := t.groups.foldl (fun (s : State) g => s.afterReturn uid g.num) s1
    let s3 := t.gangs.foldl (fun (s : State) k => match execWaitvReread { team := uid, gang := k } s with
      | .next u => u
      | _ => s) s2
    s3.rendezvous uid

/-! Commands of one tile, carried out one at a time. -/

/-- The command ends: its record is written and it leaves (R250). -/
def State.endCmd (s : State) (d : Fin 8) (c : Nat) (k : TileCmd) (status elapsed : Nat) (signature : Word) : State :=
  (s.updTile d c fun x => { x with cmds := x.cmds.drop 1 }).tileRecord d.val k status elapsed signature

def State.setTile (s : State) (d : Fin 8) (c : Nat) (st : TileState) : State := s.updTile d c fun x => { x with state := st }

/-- A status that stands whatever the op: a reserved op or field, a die that is not live or a core that is not in the map,
the issuer's own tile (R250). -/
def State.cmdStatus (s : State) (d : Fin 8) (c : Nat) (k : TileCmd) : Option Nat :=
  if !k.reservedOk then some 0x57
  else if !(s.die d.val).live || decide (c ≥ Config.cores d.val) || !bit (atV (s.die d.val).coreMap (c / 64) 0) (c % 64) then some 0x54
  else if k.fromDie = d ∧ k.fromCore = c then some 0x51
  else none

/-- The oldest command of a tile that is not carrying one out, when mine says that it is of this kind. -/
def State.tileHead (s : State) (d : Fin 8) (c : Nat) (mine : Nat → Bool) : Option TileCmd :=
  let x := s.tile d c
  match x.state, x.cmds with
  | .open, k :: _ | .held, k :: _ => if mine k.op then some k else none
  | _, _ => none

/-- A command of a kind starts: a status ends it, else f carries it on. -/
def State.startCmd (s : State) (o : CoreRef) (mine : Nat → Bool) (f : TileCmd → TileState → State) : State :=
  match s.tileHead o.die o.core mine with
  | none => s
  | some k =>
    match s.cmdStatus o.die o.core k with
    | some e => s.endCmd o.die o.core k e 0 0
    | none => f k (s.tile o.die o.core).state

/-- A core holds a resident team. -/
def State.occupied (s : State) (d : Fin 8) (c : Nat) : Bool := !(s.teamsOn d c).isEmpty

/-- TILE_STOP_SAVE (R376 steps 1 and 2): the clock stops, and the tile's outstanding requests are counted. -/
def execTileStopSave (o : CoreRef) (s : State) : Out :=
  .next (s.startCmd o (· == 1) fun k st =>
    match st with
    | .held => s.endCmd o.die o.core k 0x52 0 0
    | _ =>
      let s1 := { s with teams := s.teams.map fun (t : Team) => if t.die == o.die && t.core == o.core then { t with frozen := true } else t }
      s1.setTile o.die o.core (.saving { outstanding := s.outstanding o.die o.core, whey := [], lost := 0, stale := 0,
                                         counter := (s.die o.die.val).counter }))

/-- The teams of a core, by name. -/
def State.onCore (s : State) (d : Fin 8) (c uid : Nat) : Bool := (s.teamsOn d c).any (·.uid == uid)

/-- The team that a response is for. -/
def wheyTeam : WheyRef → Option Nat
  | .response r => some r.team
  | .wait t _ _ => some t
  | .put _ => none

/-- A put that a tile has admitted, whose bytes at hand its whey has not taken. -/
def Save.wants (v : Save) (s : State) (d : Fin 8) (c : Nat) (x : Landing) : Bool :=
  x.put && x.admitted && !x.held && !(x.parts.isEmpty && !x.filled) && !v.whey.contains (.put x.id) &&
  (match x.team with
    | some uid => s.onCore d c uid
    | none => false)

/-- Something arrives for a tile that is being saved: an expected response or the rest of an admitted put joins its whey, and a
response for a team that has gone is stale (R376, R377). -/
def State.catch (s : State) (d : Fin 8) (c : Nat) (w : WheyRef) (v : Save) : State :=
  let join := fun (s : State) (e : Whey) => s.setTile d c (.saving { v with whey := v.whey ++ [e] })
  match w with
  | .put id => match s.landing? id with
    | some x => if v.wants s d c x then join s (.put id) else s
    | none => s
  | w =>
    if (wheyTeam w).any (s.onCore d c) then
      match s.catchRef w with
      | some (s1, e) => join s1 e
      | none => s
    else
      match w with
      | .response r =>
        if s.orphans.any fun x => x.team == r.team && x.group == r.group && x.op == r.op && x.die == d && x.core == c then
          (s.discardOrphan r).setTile d c (.saving { v with stale := v.stale + 1 })
        else s
      | _ => s

/-- WHEY_ENTRY (R376, R377). -/
def execWheyEntry (o : WheyArgs) (s : State) : Out :=
  .next (match (s.tile o.die o.core).state with
    | .saving v => s.catch o.die o.core o.what v
    | _ => s)

/-- Every request of the tile has been answered or lost, and its admitted put has been caught (R376 step 3). -/
def State.allCaught (s : State) (d : Fin 8) (c : Nat) (v : Save) : Bool :=
  s.outstanding d c == 0 && s.landings.all fun x => !v.wants s d c x

/-- Responses in a whey buffer. -/
def countResponses (whey : List Whey) : Nat :=
  (whey.filter fun e => match e with
    | .put _ => false
    | _ => true).length

/-- Sub-cores of a core. -/
def State.subsOn (s : State) (d : Fin 8) (c : Nat) : List SubCore := s.subs.filter fun x => x.die == d && x.core == c

/-- The core without its teams and with idle sub-cores. -/
def State.clearCore (s : State) (d : Fin 8) (c : Nat) : State :=
  { s with teams := s.teams.filter fun (t : Team) => !(t.die == d && t.core == c),
           subs := s.subs.filter fun (x : SubCore) => !(x.die == d && x.core == c),
           residues := s.residues.filter fun (r : Residue) => !(r.die == d && r.core == c) }

/-- A put that has been admitted and has not landed whole is held for the team (R376). -/
def State.holdPuts (s : State) (d : Fin 8) (c : Nat) : State :=
  { s with landings := s.landings.map fun x =>
      if x.admitted && (x.team).any (s.onCore d c) then { x with admitted := false, held := true } else x }

/-- SAVE_SEAL (R376 steps 3 to 6): the whey is folded, the image is written and sealed, the tile is held. An image that
cannot be written waits (log 39). -/
def execSaveSeal (o : CoreRef) (s : State) : Out :=
  .next (match (s.tile o.die o.core).state, (s.tile o.die o.core).cmds with
    | .saving v, k :: _ =>
      if !s.allCaught o.die o.core v then s
      else
        let s1 := (v.whey.foldl State.foldWhey s).holdPuts o.die o.core
        let thaw := fun (t : Team) => { t with frozen := false }
        let ts := s1.withEpochs ((s1.teamsOn o.die o.core).map thaw)
        match s1.writeImage o.die.val k.partition k.image none ts (s1.subsOn o.die o.core)
            { counter := v.counter, outstanding := v.outstanding, folded := countResponses v.whey, lost := v.lost, stale := v.stale } with
        | some s2 => ((s2.clearCore o.die o.core).setTile o.die o.core .held).endCmd o.die o.core k 0 0 0
        | none => s.collapseFor o.die.val k.partition k.image.toNat (4096 + (s1.imageBody ts).length)
    | _, _ => s)

/-! Restore (R375, R379). -/

/-- Bytes of a partition's window as die d reads them; none when they cannot be read. -/
def State.peek (s : State) (d p va n : Nat) : Option (List Byte) :=
  match s.readGlobal d p .read va n with
  | .ok bs => some (bs.map (·.1))
  | .error _ => none

/-- The bytes of an image at an address, read by die d: its header and its body; none when they cannot be read. -/
def State.readImage (s : State) (d : Nat) (p : Fin 16) (addr : DWord) : Option (List Byte × List Byte) :=
  (s.peek d p.val addr.toNat 4096).bind fun h =>
    (s.peek d p.val (addr.toNat + 4096) (leAt h 8 4 - 4096)).map fun b => (h, b)

/-- The header's checks of R375 on die d. -/
def State.imageFits (s : State) (d : Nat) (h body : List Byte) : Bool :=
  leAt h 0 4 == 0x474D495A && leAt h 4 2 == 1 && leAt h 6 1 == Config.generation d && leAt h 7 1 == (s.die d).revision.toNat &&
  leAt h 8 4 % 4096 == 0 && leAt h 0xF 1 == 0 && allZero ((h.drop 0x28).take 8) && allZero (h.drop 0x150) &&
  ((List.range 16).all fun i => leAt h (0x50 + 16 * i + 0xF) 1 == 0 && decide (leAt h (0x50 + 16 * i + 0xD) 1 < 16)) &&
  leAt h 0x30 32 == (sha3 body).toNat

/-- Directory entry i of a header: its partition and epoch, when the team mask carries it (R373, R374). -/
def directory (h : List Byte) (i : Nat) : Option (Nat × BitVec 4) :=
  if leAt h 0xC 2 / 2 ^ i % 2 = 1 then
    some (leAt h (0x50 + 16 * i + 0xC) 1 % 16, BitVec.ofNat 4 (leAt h (0x50 + 16 * i + 0xD) 1))
  else none

/-- A saved team becomes resident on a core, or is dropped and counted when its partition has been reset (R379); copy says that
it is a further copy of a team, which takes a name of its own (log 23). -/
def State.reinstate (s : State) (d : Fin 8) (c : Nat) (t : Team) (p : Nat) (epoch : BitVec 4) (copy : Bool) : State :=
  if (s.part p).epoch = epoch ∧ (s.launch? t.launch).isSome then
    let uid := if copy || s.teams.any (·.uid == t.uid) then s.nextUid else t.uid
    { s with teams := s.teams ++ [{ t with uid := uid, die := d, core := c, frozen := false }], nextUid := s.nextUid + 1,
             residues := s.residues.filter fun r => !(r.die == d && r.core == c) }.wake uid
  else s.updPart p fun x => { x with cDropped := x.cDropped + 1 }

/-- The die's counter passes a stamp, as on the receipt of a message (R379, R392). -/
def State.passStamp (s : State) (d : Nat) (stamp : BitVec 48) : State :=
  s.updDie d fun x => { x with counter := laterOf x.counter stamp + 1 }

/-- A core's cluster is drained (R366). -/
def State.drainedAt (s : State) (d : Fin 8) (c : Nat) : Bool := s.drained.any fun x => x.die == d && x.cluster == c / 4

/-- An image that is no longer away. -/
def State.spend (s : State) (i : Image) : State :=
  { s with images := s.images.map fun x => if x = i then { x with live := false } else x }

/-- The whole image on an idle core: sub-cores, then the teams that the header's directory carries (R379). -/
def State.restoreTile (s : State) (o : CoreRef) (h : List Byte) (i : Image) : State :=
  let here := fun (x : SubCore) => { x with die := o.die, core := o.core }
  let s1 := { s with subs := (s.subs.filter fun (x : SubCore) => !(x.die == o.die && x.core == o.core)) ++ i.subs.map here }
  let s2 := ((s1.spend i).passStamp o.die.val (BitVec.ofNat 48 (leAt h 0x10 6))).setTile o.die o.core .open
  i.teams.zipIdx.foldl (fun (s : State) t => match directory h t.2 with
    | some e => s.reinstate o.die o.core t.1.1 e.1 e.2 (!i.live)
    | none => s) s2

/-- TILE_RESTORE (R375, R379, R383). What an image's scan state stands for is known by its digest (log 23); one that cannot be
read waits (log 39), as does one for a core of a drained cluster, which takes no team (R366; log 53). -/
def execTileRestore (o : CoreRef) (s : State) : Out :=
  .next (s.startCmd o (· == 2) fun k _ =>
    if s.occupied o.die o.core then s.endCmd o.die o.core k 0x52 0 0
    else if s.drainedAt o.die o.core then s
    else
      match s.readImage o.die.val k.partition k.image with
      | none => s
      | some (h, body) =>
        match if s.imageFits o.die.val h body then s.images.find? fun i => i.slot.isNone && i.digest == sha3 body else none with
        | none => s.endCmd o.die o.core k 0x53 0 0
        | some i => (s.restoreTile o h i).endCmd o.die o.core k 0 0 0)

/-! The scan test (R383 to R385). -/

/-- IN_FIELD_SCAN_TEST (R384 step 1). -/
def execInFieldScanTest (o : CoreRef) (s : State) : Out :=
  .next (s.startCmd o (· == 3) fun k _ =>
    if s.occupied o.die o.core then s.endCmd o.die o.core k 0x52 0 0 else s.setTile o.die o.core .draining)

/-- Steps 5 and 6 of R384: the tile is reset and the record written. -/
def State.endTest (s : State) (o : CoreRef) (k : TileCmd) (st : TileState) (status elapsed : Nat) (signature : Word) : State :=
  ((s.clearCore o.die o.core).setTile o.die o.core st).endCmd o.die o.core k status elapsed signature

/-- Another core than the tile's could take the launch's next team now. -/
def State.elsewhere (s : State) (l : Launch) : Bool :=
  dies8.any fun d => (List.range (Config.cores d.val)).any fun c => (s.canPlace l d c).isSome

/-- A launch of at least a priority waits for a core that the tile could give it (R91, R385). -/
def State.waitingFor (s : State) (o : CoreRef) (level : Nat) : Bool :=
  let s1 := s.setTile o.die o.core .open
  s.launches.any fun l => decide (l.priority.val ≥ level) && (s1.canPlace l o.die o.core).isSome && !s.elsewhere l

/-- SCAN_DRAIN_END (R384 step 2): no response is still under way to the tile; the text buffer is invalidated. A launch that
waits ends the test (R385). -/
def execScanDrainEnd (o : CoreRef) (s : State) : Out :=
  .next (match (s.tile o.die o.core).state, (s.tile o.die o.core).cmds with
    | .draining, k :: _ =>
      if s.orphans.any fun x => x.die == o.die && x.core == o.core then s
      else if s.waitingFor o k.abort then s.endTest o k .open 0x55 0 0
      else (s.updDie o.die.val fun d => { d with text := [] }).setTile o.die o.core .testing
    | _, _ => s)

/-- SCAN_PATTERN_RUN_END (R384 steps 3 to 6): the signature is a free value (log 7). A launch that waits when the run ends has
ended the test (R385). -/
def execScanPatternRunEnd (o : CoreRef) (s : State) : Out :=
  .next (match (s.tile o.die o.core).state, (s.tile o.die o.core).cmds with
    | .testing, k :: _ =>
      if s.waitingFor o k.abort then s.endTest o k .open 0x55 k.duration 0
      else
        let sig := Config.scanSignature o.die.val o.core (s.die o.die.val).revision k.duration s.free
        let s1 := { s with free := s.free + 1 }
        if sig = k.expected then s1.endTest o k .open 0 k.duration sig else s1.endTest o k .held 0x56 k.duration sig
    | _, _ => s)

/-- SCAN_TEST_ABORT (R385). -/
def execScanTestAbort (o : AbortArgs) (s : State) : Out :=
  let r : CoreRef := { die := o.die, core := o.core }
  .next (match (s.tile o.die o.core).state, (s.tile o.die o.core).cmds with
    | .draining, k :: _ => if o.elapsed = 0 ∧ s.waitingFor r k.abort then s.endTest r k .open 0x55 0 0 else s
    | .testing, k :: _ => if o.elapsed ≤ k.duration ∧ s.waitingFor r k.abort then s.endTest r k .open 0x55 o.elapsed 0 else s
    | _, _ => s)

/-- TILE_START (R383): a held tile opens; a command with a reserved op ends here too. -/
def execTileStart (o : CoreRef) (s : State) : Out :=
  .next (s.startCmd o (fun n => n != 1 && n != 2 && n != 3) fun k _ =>
    if s.occupied o.die o.core then s.endCmd o.die o.core k 0x52 0 0
    else (s.setTile o.die o.core .open).endCmd o.die o.core k 0 0 0)

/-! Swaps (R99, R100, R380). -/

/-- A slice is in the value-wait state, which it leaves when the condition holds in every slice of its gang (R183). -/
def Group.inValueWait (g : Group) (x : Slice) : Bool :=
  x.waitsValue.isSome || (x.sdone && g.slices.any fun y => y.inGang x.gang && y.waitsValue.isSome)

/-- A group whose every live slice is in the value-wait state (R183). -/
def Group.allWaiting (g : Group) : Bool := !g.live.isEmpty && g.live.all g.inValueWait

/-- Groups of a core that have an entry, by team. -/
def State.entriesOn (s : State) (d : Fin 8) (c : Nat) : List (Team × Group) :=
  (s.teamsOn d c).flatMap fun t => (t.groups.filter fun g => !g.ended).map fun g => (t, g)

/-- The core is all-waiting: it holds groups, and each of them waits on a value (R99, R183). -/
def State.allWaiting (s : State) (d : Fin 8) (c : Nat) : Bool :=
  !(s.entriesOn d c).isEmpty && (s.entriesOn d c).all fun x => x.2.allWaiting

/-- Cores that hold teams. -/
def State.busyCores (s : State) : List (Fin 8 × Nat) := (s.teams.map fun t => (t.die, t.core)).eraseDups

/-- A report that leads to no swap is counted in every partition that has a group on the core. -/
def State.countReport (s : State) (d : Fin 8) (c : Nat) : State :=
  ((s.teamsOn d c).map (·.partition)).eraseDups.foldl (fun (s : State) p =>
    s.updPart p.val fun x => { x with cWaiting := x.cWaiting + 1 }) s

/-- A core's report is over, and is counted when it has led to no swap (R99, R100). -/
def State.closeReport (s : State) (d : Fin 8) (c : Nat) : State :=
  let s1 := s.updTile d c fun x => { x with reported := [], pending := false }
  if (s.tile d c).pending then s1.countReport d c else s1

/-- Groups of a team issue on a core: the report that named one of them is over (R99). -/
def State.endReport (s : State) (d : Fin 8) (c uid : Nat) (gs : List Nat) : State :=
  if (s.tile d c).reported.any fun r => r.1 == uid && gs.contains r.2 then s.closeReport d c else s

/-- A core that has become all-waiting sends its report; one whose groups have all gone is over (R99). -/
def State.report (s : State) (d : Fin 8) (c : Nat) : State :=
  let x := s.tile d c
  let here := (s.entriesOn d c).map fun y => (y.1.uid, y.2.num)
  if x.state == .open && x.reported.isEmpty && s.allWaiting d c then
    s.updTile d c fun x => { x with reported := here, pending := true }
  else if !x.reported.isEmpty && !x.reported.any here.contains then s.closeReport d c
  else s

/-- Every report that is due is sent. -/
def State.reports (s : State) : State := s.busyCores.foldl (fun (s : State) x => s.report x.1 x.2) s

/-- The lowest free slot of a partition's swap pool (R100). -/
def State.freeSlot (s : State) (p : Fin 16) : Option Nat :=
  let used := s.images.filterMap fun i => if i.partition == p then i.slot else none
  (List.range (s.part p.val).poolSlots).find? fun k => !used.contains k

/-- A team of the core saved in a slot of its partition's pool: outstanding requests are answered first, and its resources
are freed; none when the pool's write meets a fault (R100, R380). -/
def State.saveTeam (s : State) (t : Team) (slot : Nat) : Option State :=
  let s1 := s.answerTeam t.uid t.outstanding
  match s1.team? t.uid with
  | none => none
  | some u =>
    let addr := (s.part t.partition.val).poolBase + BitVec.ofNat 64 (2 ^ 20 * slot)
    (s1.writeImage t.die.val t.partition addr (some slot) (s1.withEpochs [u]) []
        { counter := (s.die t.die.val).counter, outstanding := t.outstanding, folded := t.outstanding, lost := 0, stale := 0 }).map
      fun s2 => { s2 with teams := s2.teams.filter (·.uid != t.uid) }

/-- A group of a swapped team in the place that its row has found (R380). -/
def Group.moveTo (g : Group) (rs : List RowPlace) (start : Nat → Nat) : Group :=
  match rs.find? fun r => decide (r.row.first ≤ g.num) && decide (g.num < r.row.first + r.row.count) with
  | none => g
  | some r =>
    let i := g.num - r.row.first
    { g with place := { sub := Fin.ofNat 4 r.sub, entry := r.entries.getD i 0, base := r.base, lanePos := g.width * i,
                        start := start r.sub + g.num } }

/-- A swapped team returns to a core of the same revision that it fits; its slot is freed (R100, R379, R380). Its groups take
start numbers after those of the sub-cores' groups (log 45). -/
def State.restoreTeam (s : State) (i : Image) (d : Fin 8) (c : Nat) : Option State :=
  match i.slot, i.teams with
  | some _, [(t, _)] =>
    match s.launch? t.launch with
    | none => none
    | some l =>
      if i.generation ≠ Config.generation d.val ∨ i.revision ≠ (s.die d.val).revision ∨ !s.coreOpen d c then none
      else
        match s.coreFits { l with die := none } d c, s.readImage d.val i.partition i.addr with
        | some rs, some (h, body) =>
          match if s.imageFits d.val h body && sha3 body == i.digest then directory h 0 else none with
          | none => none
          | some e =>
            let u := t.mapGroups (·.moveTo rs fun k => s.startNumber d c (Fin.ofNat 4 k))
            let s1 := { s with images := s.images.erase i }.passStamp d.val (BitVec.ofNat 48 (leAt h 0x10 6))
            let s2 := [0, 1, 2, 3].foldl (fun (s : State) (k : Fin 4) => s.countStarts d c k 16) s1
            some (s2.reinstate d c u e.1 e.2 false)
        | _, _ => none
  | _, _ => none

/-- A waiting team of a partition placed on a core: a saved one other than that just saved, else a launch's next (R99, R190;
log 58). -/
def State.placeWaiting (s : State) (p : Fin 16) (d : Fin 8) (c saved : Nat) : Option State :=
  ((s.images.filter fun i => i.partition == p && i.teams.all (·.1.uid != saved)).findSome? fun i => s.restoreTeam i d c).or
    ((bestLaunch 0 (s.launches.filter fun l => l.partition == p && (s.canPlace l d c).isSome)).bind fun l =>
      (s.canPlace l d c).map fun rs => s.placeTeam l d c rs)

/-- The swap of a candidate team, and a waiting team in its place. -/
def State.swap (s : State) (t : Team) : Option State :=
  (s.freeSlot t.partition).bind fun k => (s.saveTeam t k).bind fun s1 => s1.placeWaiting t.partition t.die t.core t.uid

/-- TEAM_SWAP (R99): the scheduler acts on a core's report, when the core is still all-waiting. -/
def execTeamSwap (o : SwapTeamArgs) (s : State) : Out :=
  .next (if !(s.tile o.die o.core).pending then s
    else
      let s1 := s.updTile o.die o.core fun x => { x with pending := false }
      match s1.team? o.team with
      | none => s1.countReport o.die o.core
      | some t =>
        if t.die == o.die && t.core == o.core && s1.allWaiting o.die o.core && (s1.part t.partition.val).swapPolicy == 1 then
          let p := s1.part t.partition.val
          let base := p.poolBase.toNat + 2 ^ 20 * (s1.freeSlot t.partition).getD 0
          (s1.swap t).getD ((s1.countReport o.die o.core).collapseFor o.die.val t.partition base (if p.poolSlots = 0 then 0 else 2 ^ 20))
        else s1.countReport o.die o.core)

/-- SWAP_RESTORE (R100, R380). -/
def execSwapRestore (o : SwapRestoreArgs) (s : State) : Out :=
  .next ((s.images[o.image]?.bind fun i => s.restoreTeam i o.die o.core).getD s)

end Sys2Proof.Machine
end

