-- ==== Sys2Proof/Machine/Reset.lean ====
section
/-! DEFINITION. Partition reset (R81, R82), die reset (R381, R382, R407), and power: bring-up under journal control and loss of
power (R400 to R403). -/

namespace Sys2Proof.Machine

/-! Teams removed by a reset. -/

/-- Responses still under way to a team that goes, one for each of its requests. -/
def State.orphansOf (s : State) (t : Team) : List Orphan :=
  let one := fun (group op : Nat) =>
    { team := t.uid, group := group, op := op, partition := t.partition, epoch := (s.part t.partition.val).epoch,
      die := t.die, core := t.core, inc := (s.die t.die.val).inc : Orphan }
  t.requests.filterMap fun r => match r with
    | .response q => some (one q.group q.op)
    | .wait _ n k => some (one n k)
    | .put _ => none

/-- The team that an entry of the whey is for; a put's is its landing's. -/
def State.wheyFor (s : State) : Whey → Option Nat
  | .value t _ _ _ | .wait t _ _ _ _ | .granule t _ _ _ | .ahead t _ _ _ => some t
  | .put id => (s.landing? id).bind (·.team)

/-- A tile's save without teams that go: their entries are cleared, and what they had outstanding counts no more (R81, R378). -/
def Save.without (v : Save) (s : State) (out : List Team) : Save :=
  let mine := fun (w : Whey) => (s.wheyFor w).any fun uid => out.any (·.uid == uid)
  let gone := countResponses (v.whey.filter mine) + (out.map Team.outstanding).sum
  { v with whey := v.whey.filter fun w => !mine w, outstanding := v.outstanding - gone }

/-- A tile without teams that go. -/
def Tile.without (x : Tile) (s : State) (out : List Team) : Tile :=
  match x.state with
  | .saving v => { x with state := .saving (v.without s (out.filter fun t => t.die == x.die && t.core == x.core)) }
  | _ => x

/-- Resident teams of a kind are removed: their sources that no engine has read send nothing, and puts to them are held no
longer. -/
def State.removeTeams (s : State) (f : Team → Bool) : State :=
  let out := s.teams.filter f
  let gone := fun (uid : Nat) => out.any (·.uid == uid)
  let unhold := fun (x : Landing) => if (x.team).any gone then { x with held := false, admitted := false } else x
  { s with
    teams := s.teams.filter fun t => !f t
    orphans := s.orphans ++ out.flatMap s.orphansOf
    landings := (s.landings.filter fun x => x.filled || !gone x.fromTeam).map unhold
    tiles := s.tiles.map fun x => x.without s out }

/-! Partition reset. -/

/-- Steps 1, 2 and 6 of R81 in the partition's own registers: n packets are discarded, and the events from before wait. Registers
with a reset value take it, but for the root table (R104) and the descriptor, which names where those events go (R7, R73; log
43). -/
def Partition.beginReset (x : Partition) (n : Nat) : Partition :=
  { x with queues := Vector.replicate 16 [], resetting := true, resetWait := x.events.length,
           resetCount := if x.resetting then x.resetCount + n else n, cDiscarded := x.cDiscarded + BitVec.ofNat 64 n,
           epoch := x.epoch + 1, launchNum := 0, faultSeq := 0, traceSeq := 0, faultRing := 0, traceRing := 0, swapPolicy := 0,
           scratch := Vector.replicate 8 0 }

/-- The partition's scratchpad allocations are cleared (R81 step 4). -/
def State.clearAllocations (s : State) (p : Fin 16) : State :=
  dies8.foldl (fun (s : State) (d : Fin 8) =>
    let a := s.allocation p.val d.val
    s.zeroScratch d.val a.1 (a.1 + a.2)) s

/-- Launches, continuations, curd records, landings and swapped teams of a partition are gone (R81; log 43). -/
def State.dropWork (s : State) (p : Fin 16) : State :=
  let ids := (s.launches.filter fun l => l.partition == p).map (·.id) ++
    (s.continuations.filter fun c => c.partition == p).map (·.launch)
  let empty := fun (d : Die) => { d with curd := d.curd.filter fun c => !ids.contains c.launch }
  { s with
    launches := s.launches.filter fun l => l.partition != p
    continuations := s.continuations.filter fun c => c.partition != p
    landings := s.landings.filter fun x => x.partition != p
    images := s.images.filter fun i => !(i.partition == p && i.slot.isSome)
    dies := s.dies.map empty }

/-- PARTITION_RESET (R81, R350): steps 1 to 5; steps 6 and 7 are EVENT_SEND and RESET_COMPLETE_EVENT. -/
def execPartitionReset (s : State) : Out :=
  .next (s.command fun c => forPart c fun p =>
    let n := ((s.part p.val).queues.toList.map List.length).sum
    let s1 := ((s.removeTeams fun t => t.partition == p).dropWork p).clearAllocations p
    .ok ((s1.updPart p.val (·.beginReset n)).freeVersions))

/-! Die reset. -/

/-- Bytes that are all poisoned. -/
def poisonAll (bs : List (Byte × Bool)) : List (Byte × Bool) := bs.map fun b => (b.1, true)

/-- A request that die d was to answer. -/
def Part.toward (p : Part) (t : Team) (d : Nat) : Bool := p.sent && p.spot.server t == some d

def Chunk.toward (c : Chunk) (t : Team) (d : Nat) : Bool :=
  c.sent && (c.dst.server t == some d || match c.src with
    | .mem ps => ps.any fun p => p.1.server t == some d
    | .data _ => false)

def Early.toward (e : Early) (t : Team) (d : Nat) : Bool := e.bytes.isNone && e.spot.server t == some d

/-- The bytes at an access's place, and with them its granule, are poisoned (R360). -/
def State.poisonPart (s : State) (uid n id : Nat) (p : Part) : State :=
  match s.opAt uid n id with
  | none => s
  | some (t, g, _) => s.writeSpot uid n (poisonAll (s.readSpot t g p.ty.bytes p.spot)) p.spot

/-- An access of a lane or slice completes as poisoned: its value is. Whether it had been performed, and whether the reset found
it writing and has poisoned its granule, are free values (R382, R407; log 42). -/
def State.losePart (s : State) (uid n id k : Nat) (p : Part) : State :=
  let s1 := { s with free := s.free + 1 }
  let how := Config.eventValue s.free
  let s2 := if bit how 0 then (s1.doPart uid n id p).1 else s1
  let s3 := if bit how 1 && p.act.writes then s2.poisonPart uid n id p else s2
  let ws := p.dst.map fun w => w.withValue 0 true
  s3.updOp uid n id fun o => match o.job with
    | .access ord parts w => { o with job := .access ord (parts.eraseIdx k) (w ++ ws) }
    | _ => o

/-- A granule that an engine was moving is marked as poisoned (R382, R407). -/
def State.loseChunk (s : State) (t : Team) (g : Group) (o : Op) (k : Nat) (c : Chunk) : State :=
  (s.writeSpot t.uid g.num (poisonAll (s.readSpot t g c.n c.dst)) c.dst).setJob t.uid g.num o.id (o.job.dropChunk k)

/-- One request of an operation toward die d completes as poisoned; none when it has no such request. -/
def State.loseOne (s : State) (d : Nat) (t : Team) (g : Group) (o : Op) : Option State :=
  if o.returned then none
  else
    match o.early.findIdx? (·.toward t d) with
    | some i => some (s.updOp t.uid g.num o.id fun o =>
        { o with early := o.early.modify i fun e => { e with bytes := some (poisonAll (s.readSpot t g 32 e.spot)) } })
    | none =>
      match o.job with
      | .access _ parts _ => (parts.findIdx? (·.toward t d)).bind fun k => (parts[k]?).map (s.losePart t.uid g.num o.id k)
      | j => (j.chunks.findIdx? (·.toward t d)).bind fun k => (j.chunks[k]?).map (s.loseChunk t g o k)

/-- What the loss of a request brings about in its operation: it may have returned. -/
def State.afterLoss (s : State) (uid n id : Nat) (frozen : Bool) : State :=
  let s1 := match (s.opAt uid n id).map fun x => x.2.2.job.readyBack && !x.2.2.returned with
    | some true => s.updGroup uid n (·.returnOp id)
    | _ => s
  if frozen then s1 else s1.afterMove uid n id

/-- Every request of an operation toward die d completes as poisoned, and how many; fuel bounds them. -/
def State.loseOp (s : State) (d uid n id : Nat) : Nat → State × Nat
  | 0 => (s, 0)
  | fuel + 1 =>
    match s.opAt uid n id with
    | none => (s, 0)
    | some (t, g, o) =>
      match s.loseOne d t g o with
      | none => (s, 0)
      | some s1 =>
        let r := (s1.afterLoss uid n id t.frozen).loseOp d uid n id fuel
        (r.1, r.2 + 1)

/-- The read of a value wait toward die d completes as poisoned: a running slice consumes it, and a saved one finds it in its
register (R284, R361, R382). -/
def State.loseWait (s : State) (d : Nat) (t : Team) (g : Group) (x : Slice) : State × Nat :=
  match x.asked, x.waitsValue with
  | true, some w =>
    match s.locate t g false .read (x.getPair w.2.a) w.2.t.bytes with
    | .place p =>
      if p.server t ≠ some d then (s, 0)
      else
        let s1 := s.updSlice t.uid g.num x.num fun y => { y with asked := false }
        if t.frozen then
          let ws := (scalarDst x.num w.2.t w.2.d).map fun r => r.withValue 0 true
          (s1.updGroup t.uid g.num fun g => ws.foldl (fun (g : Group) r => r.apply g) g, 1)
        else
          let s2 := { s1 with cur := { team := t.uid, gang := x.gang } }
          ({ (s2.preciseTraps [(x, mkRec g x 0 (memPoison (x.getPair w.2.a)))]).rendezvous t.uid with cur := s.cur }, 1)
    | _ => (s, 0)
  | _, _ => (s, 0)

/-- One team's requests toward a reset die complete as poisoned; a saving tile counts them in lost. -/
def State.loseRequests (s : State) (d : Nat) (t : Team) : State :=
  let ops := t.groups.flatMap fun g => g.ops.map fun o => (g.num, o.id, o.outstanding)
  let r1 := ops.foldl (fun (a : State × Nat) o =>
    let r := a.1.loseOp d t.uid o.1 o.2.1 o.2.2
    (r.1, a.2 + r.2)) (s, 0)
  let waits := t.groups.flatMap fun g => g.slices.map fun x => (g.num, x.num)
  let r2 := waits.foldl (fun (a : State × Nat) w =>
    match (a.1.team? t.uid).bind fun t => (t.group? w.1).bind fun g => (g.slice? w.2).map fun x => (t, g, x) with
    | none => a
    | some (t, g, x) => let r := a.1.loseWait d t g x; (r.1, a.2 + r.2)) r1
  match (r2.1.tile t.die t.core).state with
  | .saving v => if r2.2 = 0 then r2.1 else r2.1.setTile t.die t.core (.saving { v with lost := v.lost + r2.2 })
  | _ => if t.frozen then r2.1 else r2.1.rendezvous t.uid

/-- The die's incarnation advances, its counters are 0, and requests toward it complete as poisoned (R381, R382, R406). -/
def State.newIncarnation (s : State) (d : Nat) : State :=
  let s1 := s.updDie d fun x =>
    { x with inc := x.inc + 1, resetting := none, cPuts := 0, cCorrected := 0, cUncorrected := 0, cStale := 0 }
  s1.teams.foldl (fun (s : State) t => s.loseRequests d t) s1

/-- Launches with a team on the die fail, and its teams count as exited (R407). -/
def State.failLaunches (s : State) (d : Fin 8) : State :=
  { s with launches := s.launches.map fun (l : Launch) =>
      let n := (s.teams.filter fun t => t.die == d && t.launch == l.id).length
      if n = 0 then l else { l with dieReset := true, exited := l.exited + n } }

/-- Curd records and continuations of a die go with its reset; the records are counted (R391; log 42). -/
def State.clearCurd (s : State) (d : Fin 8) : State :=
  let cs := s.continuations.filter fun c => c.die == d
  let s1 := cs.foldl (fun (s : State) c => s.discardCurd d.val c.partition c.launch) s
  { s1 with continuations := s1.continuations.filter fun c => c.die != d }.updDie d.val fun x => { x with curd := [], text := [] }

/-- The registers of a compute die, zeroed: grant, core map, trace control (R251), and each partition's scratchpad allocation there
(R103); the logical counter goes on (log 42). -/
def State.zeroRegisters (s : State) (d : Fin 8) : State :=
  { s with partitions := s.partitions.map fun (x : Partition) => { x with scratch := x.scratch.set d 0 } }.updDie d.val fun x =>
    { x with grant := false, coreMap := #v[0, 0, 0], trace := 0 }

/-- A compute die's reset, steps 1 to 4 of R407. -/
def State.resetCompute (s : State) (d : Fin 8) : State :=
  let s1 := ((s.failLaunches d).removeTeams fun t => t.die == d).clearCurd d
  let s2 := (s1.zeroScratch d.val 0 (2 ^ 20 * Config.scratchMiB d.val)).zeroRegisters d
  { s2 with
    tiles := s2.tiles.filter fun x => x.die != d
    subs := s2.subs.filter fun x => x.die != d
    residues := s2.residues.filter fun x => x.die != d
    drained := s2.drained.filter fun x => x.die != d
    tlb := s2.tlb.filter fun x => x.die.val != d.val }.newIncarnation d.val

/-- DIE_RESET (R407): a compute die is reset at once; the reset of a near or far die begins, and is answered when it has
completed. -/
def execDieReset (s : State) : Out :=
  .next (
    let c := s.mgmt
    if allZero c.tail && decide (8 ≤ c.die.toNat) && decide (c.die.toNat < 14) then
      s.updDie c.die.toNat fun x => { x with resetting := some c }
    else s.command fun c => s.computeDie c fun d => .ok (s.resetCompute d))

/-- DIE_RESET_COMPLETE (R407): a near or far die's links and memory have trained again; its bytes are kept. -/
def execDieResetComplete (o : Fin 14) (s : State) : Out :=
  .next (match (s.die o.val).resetting with
    | none => s
    | some c =>
      let s1 := s.newIncarnation o.val
      { s1 with free := s1.free + 1 }.answerFor c 0 (Config.eventValue s1.free))

/-! Bring-up (R400 to R403). -/

/-- The steps of R400 with their targets, in order. -/
def bringUpSteps : List (Nat × Nat) :=
  [(1, 12), (2, 8), (2, 9), (2, 10), (2, 11), (3, 12), (3, 13), (4, 0), (4, 1), (4, 2), (4, 3), (4, 4), (4, 5), (4, 6), (4, 7),
   (5, 0xFF), (6, 0xFF)]

/-- The ring of journal entries keeps the newest (R401). -/
def keepJournal (j : List JournalEntry) : List JournalEntry := j.drop (j.length - Config.journalDepth)

/-- The last entry of a step for a target. -/
def lastEntry (j : List JournalEntry) (a : Nat × Nat) : Option JournalEntry :=
  (j.filter fun e => e.step.toNat == a.1 && e.die.toNat == a.2).getLast?

/-- How a step is tried: its method, or none when it is skipped (R401). -/
def methodFor (j : List JournalEntry) (a : Nat × Nat) : Option Nat :=
  match lastEntry j a with
  | none => some 0
  | some e =>
    match e.outcome.toNat with
    | 3 => none
    | 0 | 2 => if e.method = 0 then some 1 else none
    | _ => some 0

/-- A capability word lets its die join (R402). -/
def admits (d : Nat) (w : Word) : Bool :=
  bits w 16 8 == Config.generation d && decide (1 ≤ bits w 8 8) && decide (bits w 8 8 ≤ Config.cores d) && bits w 0 8 == 16

/-- How an attempt ends. -/
def bringUpPasses (o : BringUp) (a : Nat × Nat) : Bool :=
  match a.1 with
  | 1 => o.firmwareOk
  | 2 => atV o.nearOk (a.2 - 8) false
  | 3 => atV o.farOk (a.2 - 12) false
  | 4 => match atV o.compute a.2 none with
    | some w => admits a.2 w
    | none => false
  | _ => true

/-- Bring-up under way: the journal, attempts made, targets that have passed, whether it has stopped. -/
structure Boot where
  journal : List JournalEntry
  attempts : Nat
  passed : List (Nat × Nat)
  stopped : Bool
  deriving DecidableEq, Repr

/-- Entries appended. -/
def Boot.write (b : Boot) (start : Word) (a : Nat × Nat) (entries : List (Nat × Nat × DWord)) : Boot :=
  let es := entries.map fun e =>
    { start := start, step := BitVec.ofNat 8 a.1, die := BitVec.ofNat 8 a.2, outcome := BitVec.ofNat 8 e.1,
      method := BitVec.ofNat 8 e.2.1, detail := e.2.2 : JournalEntry }
  { b with journal := keepJournal (b.journal ++ es) }

/-- Bring-up cannot go on without this step. -/
def essential (a : Nat × Nat) : Bool := a.1 != 3 && a.1 != 4

/-- One step of bring-up for one target (R400, R401); a die marked out of service is not tried (R27). -/
def Boot.step (o : BringUp) (outOfService : BitVec 8) (start : Word) (b : Boot) (a : Nat × Nat) : Boot :=
  if b.stopped || (a.1 == 4 && bit outOfService a.2) then b
  else
    match methodFor b.journal a with
    | none => { b.write start a [(3, 0, 0)] with stopped := essential a }
    | some m =>
      let b1 := { b with attempts := b.attempts + 1 }
      if o.lostAt = some b.attempts then { b1.write start a [(0, m, 0)] with stopped := true }
      else if bringUpPasses o a then { b1.write start a [(0, m, 0), (1, m, 0)] with passed := b.passed ++ [a] }
      else { b1.write start a [(0, m, 0), (2, m, o.detail)] with stopped := essential a }

def boot (o : BringUp) (s : State) : Boot :=
  bringUpSteps.foldl (Boot.step o s.outOfService (s.starts + 1)) { journal := s.journal, attempts := 0, passed := [], stopped := false }

def JournalEntry.bytes (e : JournalEntry) : List Byte :=
  toLE 4 e.start.toNat ++ toLE 1 e.step.toNat ++ toLE 1 e.die.toNat ++ toLE 1 e.outcome.toNat ++ toLE 1 e.method.toNat ++
  toLE 8 e.detail.toNat

/-- The digest of the journal's last 64 entries (R403). -/
def journalDigest (j : List JournalEntry) : BitVec 256 := sha3 ((j.drop (j.length - 64)).flatMap JournalEntry.bytes)

/-- A core map with the n lowest cores (log 41). -/
def lowCores (n : Nat) : Vector DWord 3 := Vector.ofFn fun k => BitVec.ofNat 64 (2 ^ min 64 (n - min n (64 * k.val)) - 1)

/-- The most far memory that a far die has (R21). -/
def farCapacity : Nat := 4000000000000

/-- A die after bring-up (R27, R400, R402). -/
def Boot.die (b : Boot) (o : BringUp) (i : Nat) : Die :=
  if i < 8 then
    match if b.passed.contains (4, i) then atV o.compute i none else none with
    | some w => { Die.fresh (lowCores (bits w 8 8)) w 0 with revision := BitVec.ofNat 8 (bits w 24 8) }
    | none => { Die.fresh #v[0, 0, 0] 0 0 with live := false }
  else if i < 12 then Die.near
  else Die.fresh #v[0, 0, 0] 0 (if b.passed.contains (3, i) then min (atV o.farBytes (i - 12) 0) farCapacity else 0)

/-- The common native level (R402). -/
def Boot.level (b : Boot) : Nat :=
  if (List.range 4).any fun i => b.passed.contains (4, 4 + i) then 5
  else if (List.range 4).any fun i => b.passed.contains (4, i) then 6 else 5

/-- A package without power: what lies in its nonvolatile region stays (R401, R405), and the model's own fields. -/
def State.off (s : State) : State :=
  { State.reset with powered := false, identity := none, owner := s.owner, journal := s.journal, starts := s.starts, outOfService := s.outOfService,
                     agenda := s.agenda, wire := s.wire, nextUid := s.nextUid, nextId := s.nextId, free := s.free,
                     rot := s.rot }

/-- POWER_ON (R400): a package without power goes through bring-up. -/
def execPowerOn (o : BringUp) (s : State) : Out :=
  .next (if s.powered then s
    else
      let b := boot o s
      let s1 := { s.off with journal := b.journal, starts := s.starts + 1 }
      if b.stopped then s1
      else
        { s1 with powered := true, identity := some 0, dies := Vector.ofFn fun i => b.die o i.val, commonLevel := b.level,
                  measured := [o.firmwareDigest, journalDigest b.journal] })

/-- POWER_LOSS (R401). -/
def execPowerLoss (s : State) : Out := .next s.off

end Sys2Proof.Machine
end

