-- ==== Sys2Proof/Machine/Cluster.lean ====
section
/-! DEFINITION. Scheduler state checks (R365 to R367), held groups (R368, R369), and thermal trips (R26). -/

namespace Sys2Proof.Machine

/-! Drained clusters. -/

def State.inCluster (t : Team) (d : Fin 8) (cluster : Nat) : Bool := t.die == d && t.core / 4 == cluster

/-- A free value for a field of a cluster-check record that no rule gives (log 44). -/
def freeField (n i bytes : Nat) : List Byte := (List.range bytes).map fun k => Config.scanState n (8 * i + k)

/-- The cluster-check record of a partition (R350, R352, R366): it names the core, and no group, slice or lane. -/
def State.clusterRecord (s : State) (o : CheckArgs) (p : Fin 16) : State × DWord :=
  let s1 := { s with free := s.free + 1 }.tick o.die.val
  let n := (s1.part p.val).faultSeq
  let f := freeField s.free
  let bs := toLE 2 0x27 ++ toLE 1 (o.unit.val + 1) ++ toLE 1 0 ++ toLE 1 p.val ++ toLE 1 o.die.val ++ toLE 1 o.core ++ f 0 1 ++
    f 1 4 ++ f 2 4 ++ f 3 4 ++ toLE 1 0xFF ++ toLE 1 0xFF ++ toLE 1 0xFF ++ toLE 1 0 ++ f 4 4 ++ f 5 4 ++ f 6 4 ++ f 7 4 ++
    toLE 4 0 ++ f 8 4 ++ toLE 8 o.cluster ++ toLE 6 (s1.die o.die.val).counter.toNat ++ toLE 2 n.toNat
  let s2 := s1.updPart p.val fun x => { x with faultSeq := x.faultSeq + 1 }
  match ringOf (s1.part p.val).faultRing with
  | none => (s2, 0)
  | some (base, size) =>
    let a := base + 64 * (n.toNat % size)
    match s2.writeRecord o.die.val p.val a bs with
    | (s3, true) => (s3, BitVec.ofNat 64 a)
    | (s3, false) => (s3, 0)

/-- The records of every partition that has groups in the cluster. -/
def State.clusterRecords (s : State) (o : CheckArgs) : List (Fin 16) → State × List (Fin 16 × DWord)
  | [] => (s, [])
  | p :: r =>
    let a := s.clusterRecord o p
    let b := a.1.clusterRecords o r
    (b.1, (p, a.2) :: b.2)

/-- Places of what an operation still has to do. -/
def Job.picks : Job → Nat
  | .access _ parts _ => parts.length
  | .gather j => j.todo.length + j.left.length
  | .rcopy j => j.left.length
  | .matrix j => j.todo.length + 1
  | j => j.chunks.length + 1

/-- The first movement that an operation can make; the state as it is when it can make none. A stream's tiles are read when an
MMV takes them. -/
def State.advanceOp (s : State) (uid n : Nat) (o : Op) : State :=
  match o.job with
  | .result _ => if o.returned then s else (s.updGroup uid n (·.returnOp o.id)).afterReturn uid n
  | .access _ _ _ =>
    match (List.range o.job.picks).find? fun k => (s.performPart uid n o.id k).isSome with
    | some k => s.movePart uid n o.id k
    | none => s
  | .stream _ | .vatPart _ _ | .fence _ _ _ => s
  | j =>
    match (List.range j.picks).find? fun k => match s.engineStep uid n o.id k with
      | .none => false
      | _ => true with
    | some k => s.engineOp uid n o.id k
    | none => s.deliver uid n o.id

/-- The operations of some teams make every movement that they can (R366 step 2); fuel bounds them. -/
def State.finishOps (s : State) (uids : List Nat) : Nat → State
  | 0 => s
  | fuel + 1 =>
    let ops := (s.teams.filter fun t => uids.contains t.uid && !t.frozen).flatMap fun t =>
      t.groups.flatMap fun g => g.ops.map fun o => (t.uid, g.num, o)
    match ops.findSome? fun o => let u := s.advanceOp o.1 o.2.1 o.2.2; if u = s then none else some u with
    | some u => u.finishOps uids fuel
    | none => s

/-- CLUSTER_CHECK_DRAIN (R366): operations already issued complete, every group is drained, records are written, and the
cluster takes no placement. -/
def execClusterCheckDrain (o : CheckArgs) (s : State) : Out :=
  .next (
    let mine := fun (t : Team) => State.inCluster t o.die o.cluster
    if !(s.die o.die.val).live || o.core / 4 != o.cluster || decide (o.core ≥ Config.cores o.die.val) ||
        s.drained.any fun x => x.die == o.die && x.cluster == o.cluster then s
    else
      let drain := fun (g : Group) => if g.ended then g else { g with drained := true }
      let s0 := s.finishOps ((s.teams.filter mine).map (·.uid)) settleFuel
      let s1 := { s0 with teams := s0.teams.map fun (t : Team) => if mine t then t.mapGroups drain else t }
      let ps := ((s1.teams.filter fun t => mine t && t.groups.any fun g => !g.ended).map (·.partition)).eraseDups
      let r := s1.clusterRecords o ps
      let x : Drained := { die := o.die, cluster := o.cluster, inconsistent := Config.tablesBroken s.free, records := r.2 }
      { r.1 with drained := r.1.drained ++ [x], free := r.1.free + 1 })

/-- The drained cluster that a command of op 0x0E names. -/
def State.drainedCluster (s : State) (c : MgmtCmd) (k : Drained → Except Nat State) : Except Nat State :=
  s.computeDie c fun d =>
    if c.operand1.toNat ≥ Config.cores d.val / 4 then .error outOfRange
    else
      match s.drained.find? fun x => x.die == d && x.cluster == c.operand1.toNat with
      | none => .error refusedByRule
      | some x => k x

/-- Teams of a drained cluster changed, and the cluster no longer drained. -/
def State.undrain (s : State) (x : Drained) (f : Team → Group → Group) : State :=
  let one := fun (t : Team) => if State.inCluster t x.die x.cluster then t.mapGroups (f t) else t
  { s with teams := s.teams.map one, drained := s.drained.filter (· != x) }

/-- Groups of a drained cluster that its check has caught. -/
def undrained (g : Group) : Group := { g with drained := false }

/-- CLUSTER_REBUILD (R367): the groups resume as they stood; inconsistent tables leave the cluster drained, with status 1. -/
def execClusterRebuild (s : State) : Out :=
  .next (s.command fun c => unless' (c.operand0 != 0) outOfRange
    (s.drainedCluster c fun x => if x.inconsistent then .error 1 else .ok (s.undrain x fun _ => undrained)))

/-- The launches of groups that a release terminates have failed with their partition's record (R353, R367). -/
def State.failReleased (s : State) (x : Drained) : State :=
  let hit := (s.teams.filter fun t => State.inCluster t x.die x.cluster && t.groups.any (·.drained)).map (·.launch)
  hit.eraseDups.foldl (fun (s : State) id => s.updLaunch id fun l =>
    { l with failed := true,
             first := l.first.orElse fun _ => (x.records.find? fun r => r.1 == l.partition).map fun r => (0x27, r.2) }) s

/-- A team of a released cluster is over: its groups end, and its launch counts it as exited (R367, R389, R394). -/
def State.endReleased (s : State) (t : Team) : State :=
  match s.launch? t.launch with
  | none => s
  | some l =>
    ((t.groups.filter fun g => !g.ended).foldl (fun (s : State) g => s.traceGroup t l 5 g.num) (s.msg t.die.val l.home)).updLaunch
      l.id fun l => { l with exited := l.exited + 1 }

/-- The cluster of a released check without teams, its cores idle as before the first (R367). -/
def State.idleCluster (s : State) (x : Drained) : State :=
  let here := fun (d : Fin 8) (c : Nat) => d == x.die && c / 4 == x.cluster
  { s.removeTeams (fun t => State.inCluster t x.die x.cluster) with
    subs := s.subs.filter fun k => !here k.die k.core
    residues := s.residues.filter fun r => !here r.die r.core
    drained := s.drained.filter (· != x) }

/-- CLUSTER_RELEASE (R367): every group is terminated, and the cluster is idle and takes placement again. -/
def execClusterRelease (s : State) : Out :=
  .next (s.command fun c => unless' (c.operand0 != 1) outOfRange
    (s.drainedCluster c fun x =>
      let ts := s.teams.filter fun t => State.inCluster t x.die x.cluster
      .ok ((ts.foldl (fun (s : State) t => s.endReleased t) (s.failReleased x)).idleCluster x)))

/-! Held groups. -/

def Debug.isHeld : Debug → Bool
  | .held _ => true
  | _ => false

/-- The held group that a command of op 0x0F names: linear team number in bits 31 to 0 of operand 1, group number in bits 39
to 32 (log 40). -/
def State.heldGroup (s : State) (c : MgmtCmd) (k : Team → Group → Except Nat State) : Except Nat State :=
  forPart c fun p =>
    if bits c.operand1 40 24 ≠ 0 then .error outOfRange
    else
      let held := fun (t : Team) => match t.group? (bits c.operand1 32 8) with
        | some g => if g.slices.any (·.dbg.isHeld) then some g else none
        | none => none
      match s.teams.find? fun t => t.partition == p && t.lin == bits c.operand1 0 32 && (held t).isSome with
      | none => .error refusedByRule
      | some t =>
        match held t with
        | none => .error refusedByRule
        | some g => k t g

/-- DEBUG_RESUME (R369). -/
def execDebugResume (s : State) : Out :=
  .next (s.command fun c => unless' (c.operand0 != 0) outOfRange
    (s.heldGroup c fun t g =>
      if g.resumable then .ok ((s.updGroup t.uid g.num Group.resume).rendezvous t.uid) else .error refusedByRule))

/-- The held slice's gang is let go for one instruction (R369). -/
def Team.stepGang (t : Team) (gang : Nat) : Team :=
  t.mapGang gang fun _ x =>
    match x.dbg with
    | .held .programTrap => { x.done with dbg := .stepping }
    | .held _ | .stopped | .stopSoon => { x with dbg := .stepping }
    | _ => x

/-- DEBUG_STEP (R369), after a stop or a held trap of any class. -/
def execDebugStep (s : State) : Out :=
  .next (s.command fun c => unless' (c.operand0 != 1) outOfRange
    (s.heldGroup c fun t g =>
      match g.slices.find? (·.dbg.isHeld) with
      | none => .error refusedByRule
      | some x => .ok (s.updTeam t.uid (·.stepGang x.gang))))

/-- DEBUG_TERMINATE (R353, R369). -/
def execDebugTerminate (s : State) : Out :=
  .next (s.command fun c => unless' (c.operand0 != 2) outOfRange
    (s.heldGroup c fun t g =>
      .ok ((((s.settled t.uid g.num).updLaunch t.launch fun l => { l with failed := true }).terminateGroup t.uid g.num).rendezvous t.uid)))

/-! Thermal trips. -/

/-- THERMAL_TRIP (R26): admission stops, every partition gets an event, and the die's clocks are lowered. -/
def execThermalTrip (o : Fin 14) (s : State) : Out :=
  .next (if !(s.die o.val).live then s
    else
      let s1 := { s.msg o.val 12 with tripped := true }.updDie o.val fun d => { d with lowered := true }
      (List.range 16).foldl (fun (s : State) p => s.freeEvent 12 p 6 0 0) s1)

end Sys2Proof.Machine
end

