-- ==== Sys2Proof/Machine/Permute.lean ====
section
/-! DEFINITION. The permutes (R217 to R222). -/

namespace Sys2Proof.Machine

/-- Register va of lane n of the group, read for an active lane of the issuing gang (R217): the source's own window, 0 in
an exited slice, a permute-source fault in a slice that is parted, and poison consumed. -/
def sourceLane (g : Group) (gang : Nat) (a : LReg) (n : Nat) : Except FaultInfo Word :=
  match g.slice? (n / 4) with
  | none => .ok 0
  | some x =>
    if x.exited then .ok 0
    else if x.gang ≠ gang then .error { cls := .permuteSource, detail := BitVec.ofNat 64 n }
    else
      let l := x.lane (Fin.ofNat 4 n)
      if l.poisoned (x.phys g.budget a) then .error { cls := .poison, reason := 1 } else .ok (l.get (x.phys g.budget a))

/-- vd from register va of another lane. -/
def permuted (g : Group) (gang : Nat) (x : Slice) (d a : LReg) (n : Nat) : Except FaultInfo LaneRes :=
  match sourceLane g gang a n with
  | .ok w => .ok { regs := [(x.phys g.budget d, w)] }
  | .error f => .error f

/-- The guard and vb of lane j's own pass: those of the pass that is running in its plane, those that its plane's copy encodes
in another (R126, R143, R145). -/
def Slice.passFields (x : Slice) (p : Fin 4) (o : LaneR) (j : Fin 4) : Guard × LReg :=
  if (x.lane j).pl = p then (o.g, o.b)
  else match x.wordAt (x.lane j).pl with
    | some w => (fGuard w.toNat, fB w.toNat)
    | none => (o.g, o.b)

/-- The lowest-numbered lane of the gang in the group whose em bit is set and whose guard holds, over all passes, with its vb
(R220; log 27). -/
def leadLane (g : Group) (c : Cur) (o : LaneR) : Option (Slice × Fin 4 × LReg) :=
  ((g.slices.flatMap fun x => lanes4.map fun j => (x, j)).find? fun p =>
    p.1.inGang c.gang && bit p.1.em p.2.val && (p.1.lane p.2).guard (p.1.passFields c.plane o p.2).1).map
  fun p => (p.1, p.2, (p.1.passFields c.plane o p.2).2)

/-- k of BCAST and ROT (R220); none when it is poison. -/
def leadValue (g : Group) (c : Cur) (o : LaneR) : Option Word :=
  match leadLane g c o with
  | some (x, j, b) => if (x.lane j).poisoned (x.phys g.budget b) then none else some ((x.lane j).get (x.phys g.budget b))
  | none => some 0

/-- BCAST and ROT with k from a register: its poison is consumed by each active lane (R220, R361). -/
def State.spread (s : State) (o : LaneR) (f : Nat → Nat → Nat → Nat) : State :=
  s.laneFixed o.g [] [.v o.d] fun g x j _ =>
    match leadValue g s.cur o with
    | none => .error { cls := .poison, reason := 1 }
    | some k => permuted g s.cur.gang x o.d o.a (f (4 * x.num + j.val) k.toNat g.width % g.width)

/-- The registers that SHFL, BCAST and ROT name, for the dependence check: va is read in other lanes. -/
def State.permute (s : State) (gd : Guard) (deps : List Reg) (d : LReg) (f : LaneFn) : State :=
  s.checked deps [.v d] fun s => s.laneFixed gd [] [] f

/-- SHFL (R218). -/
def execShfl (o : LaneR) (s : State) : Out :=
  .next (s.permute o.g [.v o.a, .v o.b] o.d fun g x _ l =>
    if l.poisoned (x.phys g.budget o.b) then .error { cls := .poison, reason := 1 }
    else permuted g s.cur.gang x o.d o.a ((l.get (x.phys g.budget o.b)).toNat % g.width))

/-- The distance is legal for every group of the gang (R159, R219). -/
def State.swapLegal (s : State) (m : Nat) : Bool := decide (1 ≤ m) && s.members.all fun x => decide (m < x.1.width)

/-- SWAP (R219). -/
def execSwap (o : SwapArgs) (s : State) : Out :=
  .next (if !s.swapLegal o.m.val then s.raiseGang s.cur.plane { cls := .illegalEncoding, reason := 0xE }
    else s.permute o.g [.v o.a] o.d fun g x j _ => permuted g s.cur.gang x o.d o.a ((4 * x.num + j.val) ^^^ o.m.val))

/-- BCAST (R220). -/
def execBcast (o : LaneR) (s : State) : Out :=
  .next (s.checked [.v o.a, .v o.b] [] fun s => s.spread o fun _ k _ => k)
/-- BCAST with an immediate (R220). -/
def execBcastImm (o : LaneI) (s : State) : Out :=
  .next (s.permute o.g [.v o.a] o.d fun g x _ _ => permuted g s.cur.gang x o.d o.a (o.imm.toNat % g.width))
/-- ROT (R220). -/
def execRot (o : LaneR) (s : State) : Out :=
  .next (s.checked [.v o.a, .v o.b] [] fun s => s.spread o fun l k _ => l + k)
/-- ROT with an immediate (R220). -/
def execRotImm (o : LaneI) (s : State) : Out :=
  .next (s.permute o.g [.v o.a] o.d fun g x j _ => permuted g s.cur.gang x o.d o.a ((4 * x.num + j.val + o.imm.toNat) % g.width))

/-- Byte k of PRMT's result (R221). -/
def prmtByte (a b c : Word) (k : Nat) : Nat :=
  let sel := bits c (4 * k) 4
  let v := bits (pairOf a b) (8 * (sel % 8)) 8
  if sel ≥ 8 then (if v ≥ 128 then 255 else 0) else v

def prmtWord (a b c : Word) : Word :=
  BitVec.ofNat 32 (prmtByte a b c 0 + 256 * prmtByte a b c 1 + 65536 * prmtByte a b c 2 + 16777216 * prmtByte a b c 3)

/-- PRMT (R221). -/
def execPrmt (o : PrmtArgs) (s : State) : Out :=
  .next (s.laneFixed o.g [.v o.a, .v o.b, .v o.c] [.v o.d] fun g x _ l =>
    let r := fun k => l.get (x.phys g.budget k)
    .ok { regs := [(x.phys g.budget o.d, prmtWord (r o.a) (r o.b) (r o.c))] })

/-- PACK (R222). -/
def execPack (o : LaneR) (s : State) : Out :=
  .next (s.lane2 o fun a b => BitVec.ofNat 32 (bits b 0 16 * 65536 + bits a 0 16))

end Sys2Proof.Machine
end

