-- ==== Sys2Proof/Machine/Special.lean ====
section
/-! DEFINITION. The special functions of R214 and R215. Each value is computed in fixed point with prec fraction bits and
an error of a few units of the last place, made odd so that it never reads as exact, and rounded once; the exact cases
stand apart. No operand of .F16 or .F32 lies so near a rounding boundary that the error could decide (log 12). -/

namespace Sys2Proof.Machine

/-- Fraction bits of the fixed-point values. -/
def prec : Nat := 704

/-- Terms x^(2k+1) / (2k+1), with alternating signs when alt: arctan (alt) or artanh of num / den. -/
def arcSeries (alt : Bool) (num den : Nat) : Nat → Nat → Int → Int → Int
  | 0, _, _, acc => acc
  | fuel + 1, k, term, acc =>
    let t : Int := term / (2 * k + 1 : Nat)
    arcSeries alt num den fuel (k + 1) (term * (num * num : Nat) / (den * den : Nat))
      (acc + (if alt && k % 2 == 1 then -t else t))

/-- π in fixed point: 16 arctan 1/5 - 4 arctan 1/239. -/
def piFix : Int :=
  let p := prec + 32
  let one : Int := (2 ^ p : Nat)
  (16 * arcSeries true 1 5 170 0 (one / 5) 0 - 4 * arcSeries true 1 239 60 0 (one / 239) 0) / (2 ^ 32 : Nat)

/-- ln 2 in fixed point: 2 artanh 1/3. -/
def ln2Fix : Int :=
  let p := prec + 32
  2 * arcSeries false 1 3 240 0 ((2 ^ p : Nat) / 3) 0 / (2 ^ 32 : Nat)

/-- Σ z^k / k! in fixed point from the given term on: step is the difference of k between terms, and neg their change
of sign. -/
def expSeries (step : Nat) (neg : Bool) (z2 : Int) : Nat → Nat → Int → Int → Int
  | 0, _, _, acc => acc
  | fuel + 1, k, term, acc =>
    let d : Nat := if step = 1 then k + 1 else (k + 1) * (k + 2)
    let t := term * z2 / (2 ^ prec : Nat) / (d : Nat)
    expSeries step neg z2 fuel (k + step) (if neg then -t else t) (acc + term)

/-- sin and cos of an angle in fixed point, at most π/4 in magnitude. -/
def sinFix (z : Int) : Int := expSeries 2 true (z * z / (2 ^ prec : Nat)) 70 1 z 0
def cosFix (z : Int) : Int := expSeries 2 true (z * z / (2 ^ prec : Nat)) 70 0 (2 ^ prec : Nat) 0
def expFix (z : Int) : Int := expSeries 1 false z 140 0 (2 ^ prec : Nat) 0

/-- A fixed-point value as an inexact value of FVal: its lowest bit stands for what lies below it. -/
def inexactVal (x : Int) : FVal := .fin (decide (x < 0)) (2 * x.natAbs + 1) (-(prec : Int) - 1)

/-- sin(2πx), x = ± m × 2^e in turns: x is reduced to eighths of a turn exactly. -/
def sinTurns (neg : Bool) (m : Nat) (e : Int) (shift : Nat) : FVal :=
  -- the fraction of |x| + shift/4 in units of 2^-k, with k fraction bits
  let k : Nat := max 3 (if e < 0 then (-e).toNat else 0)
  let unit := 2 ^ k
  let a := (m * 2 ^ (e + k).toNat) % unit
  let a' := if neg then (unit - a) % unit else a
  let y := (a' + shift * (unit / 4)) % unit
  -- octant and remainder: sin(2π y / unit)
  let half := unit / 2
  let s := decide (y ≥ half)
  let h := y % half
  let q := if h > half / 2 then half - h else h
  if q = 0 then .fin s 0 0
  else if 4 * q = unit then .fin s 1 0
  else
    -- 0 < q < unit/4: an angle up to π/2
    let angle := fun (n : Nat) => 2 * piFix * (n : Int) / (unit : Nat)
    let v := if 8 * q ≤ unit then sinFix (angle q) else cosFix (angle (unit / 4 - q))
    inexactVal (if s then -v else v)

/-- SIN: a zero takes the sign of x (R214, R215). -/
def sinVal (x : FVal) : FVal × Exc :=
  match x with
  | .nan _ => (.nan false, 0)
  | .inf _ => (.nan false, excI)
  | .fin neg m e =>
    if m = 0 then (.fin neg 0 e, 0)
    else
      match sinTurns neg m e 0 with
      | .fin _ 0 z => (.fin neg 0 z, 0)
      | v => (v, 0)

/-- COS (R214, R215). -/
def cosVal (x : FVal) : FVal × Exc :=
  match x with
  | .nan _ => (.nan false, 0)
  | .inf _ => (.nan false, excI)
  | .fin neg m e =>
    match sinTurns neg m e 1 with
    | .fin _ 0 z => (.fin false 0 z, 0)
    | v => (v, 0)

/-- RCP (R215). -/
def rcpVal (x : FVal) : FVal × Exc :=
  match x with
  | .nan _ => (.nan false, 0)
  | .inf neg => (.fin neg 0 0, 0)
  | .fin neg m e => if m = 0 then (.inf neg, excZ) else let q := divFin 1 0 m e; (.fin neg q.1 q.2, 0)

/-- RSQ (R215). -/
def rsqVal (x : FVal) : FVal × Exc :=
  match x with
  | .nan _ => (.nan false, 0)
  | .inf neg => if neg then (.nan false, excI) else (.fin false 0 0, 0)
  | .fin neg m e =>
    if m = 0 then (.inf neg, excZ)
    else if neg then (.nan false, excI)
    else
      -- 1/√x = √(1/x); 1/x is exact only when m is a power of two
      if m = 2 ^ Nat.log2 m then
        let r := sqrtFin 1 (-(e + Nat.log2 m))
        (.fin false r.1 r.2, 0)
      else
        let q := divFin (2 ^ (4 * guardBits)) (-(4 * guardBits : Int)) m e
        let r := sqrtFin q.1 q.2
        -- an odd m over 1 has an irrational root unless m is an odd square times a power of two: never a dyadic
        (.fin false (r.1 / 2 * 2 + 1) r.2, 0)

/-- 2^x; an exponent beyond every format stands for itself. -/
def exp2Val (x : FVal) : FVal × Exc :=
  match x with
  | .nan _ => (.nan false, 0)
  | .inf neg => if neg then (.fin false 0 0, 0) else (.inf false, 0)
  | .fin neg m e =>
    if m = 0 then (.fin false 1 0, 0)
    else if (natLen m : Int) + e > 14 then (.fin false 3 (if neg then -40000 else 40000), 0)
    else
      let k : Nat := if e < 0 then (-e).toNat else 0
      let unit := 2 ^ k
      let v : Int := (if neg then -1 else 1) * (m * 2 ^ (e + k).toNat : Nat)
      let n := v / (unit : Nat)
      let f := v % (unit : Nat)
      if f = 0 then (.fin false 1 n, 0)
      else
        match inexactVal (expFix (ln2Fix * f / (unit : Nat))) with
        | .fin s a b => (.fin s a (b + n), 0)
        | w => (w, 0)

/-- log2 of x. -/
def log2Val (x : FVal) : FVal × Exc :=
  match x with
  | .nan _ => (.nan false, 0)
  | .inf neg => if neg then (.nan false, excI) else (.inf false, 0)
  | .fin neg m e =>
    if m = 0 then (.inf true, excZ)
    else if neg then (.nan false, excI)
    else
      let k := Nat.log2 m
      let n : Int := e + k
      if m = 2 ^ k then (.fin (decide (n < 0)) n.natAbs 0, 0)
      else
        -- log2(m / 2^k) = 2 artanh((m - 2^k) / (m + 2^k)) / ln 2
        let num := m - 2 ^ k
        let den := m + 2 ^ k
        let l := 2 * arcSeries false num den 240 0 ((2 ^ prec : Nat) * (num : Int) / (den : Nat)) 0
        (inexactVal (n * (2 ^ prec : Nat) + l * (2 ^ prec : Nat) / ln2Fix), 0)

/-- A special function on the bits of its operand: rounded to nearest; saturation is the SAT field alone (R214). -/
def specialOp (f : FVal → FVal × Exc) (t : ETy) (mode : Word) (a : Nat) : Nat × Exc :=
  let fl := flushes t mode
  let x := unpack t fl a
  finish t 1 (modeSat mode) fl [x] (f x)

end Sys2Proof.Machine
end

