-- ==== Sys2Proof/Machine/Typed.lean ====
section
/-! DEFINITION. The typed lane instructions (R205 to R213), the special functions (R214, R215) and DP4 (R216). -/

namespace Sys2Proof.Machine

/-! Shared shapes. -/

/-- vd of type t from values of types u, v in va and vb, with the mode register (R191, R196). -/
def State.typed2 (s : State) (gd : Guard) (t : ETy) (d a b : LReg) (f : Word → Nat → Nat → Nat × Exc) : State :=
  s.laneFixed gd (vRegs t a ++ vRegs t b) (vRegs t d) fun g x _ l =>
    .ok (resOf x g.budget t d (f g.mode (x.laneRaw g.budget t a l) (x.laneRaw g.budget t b l)))

/-- vd of type t from a value of type u in va. -/
def State.typed1 (s : State) (gd : Guard) (t u : ETy) (d a : LReg) (f : Word → Nat → Nat × Exc) : State :=
  s.laneFixed gd (vRegs u a) (vRegs t d) fun g x _ l =>
    .ok (resOf x g.budget t d (f g.mode (x.laneRaw g.budget u a l)))

/-- The same with variable latency (R193). -/
def State.typed1v (s : State) (gd : Guard) (t : ETy) (d a : LReg) (f : Word → Nat → Nat × Exc) : State :=
  s.laneVar gd (vRegs t a) (vRegs t d) fun g x _ l =>
    .ok (resOf x g.budget t d (f g.mode (x.laneRaw g.budget t a l)))

/-- A typed shift: the count is the whole of vb, unsigned (R208). -/
def State.typedShift (s : State) (o : TypedP) (left : Bool) : State :=
  s.laneFixed o.g (vRegs o.t o.a ++ [.v o.b]) (vRegs o.t o.d) fun g x _ l =>
    .ok (resOf x g.budget o.t o.d (shiftOp left o.t (x.laneRaw g.budget o.t o.a l) (l.get (x.phys g.budget o.b)).toNat, 0))

/-! The instructions. -/

/-- ADD_TYPED (R205). -/
def execAddTyped (o : TypedB) (s : State) : Out := .next (s.typed2 o.g o.t o.d o.a o.b (arith .add o.t o.rm o.sat))
/-- SUB_TYPED (R205). -/
def execSubTyped (o : TypedB) (s : State) : Out := .next (s.typed2 o.g o.t o.d o.a o.b (arith .sub o.t o.rm o.sat))
/-- MUL_TYPED (R205). -/
def execMulTyped (o : TypedB) (s : State) : Out := .next (s.typed2 o.g o.t o.d o.a o.b (arith .mul o.t o.rm o.sat))
/-- MAD (R205). -/
def execMad (o : TypedC) (s : State) : Out :=
  .next (s.laneFixed o.g (vRegs o.t o.a ++ vRegs o.t o.b ++ vRegs o.t o.c) (vRegs o.t o.d) fun g x _ l =>
    .ok (resOf x g.budget o.t o.d (madOp o.t o.rm o.sat g.mode (x.laneRaw g.budget o.t o.a l) (x.laneRaw g.budget o.t o.b l)
      (x.laneRaw g.budget o.t o.c l))))
/-- MIN_TYPED (R206). -/
def execMinTyped (o : TypedP) (s : State) : Out := .next (s.typed2 o.g o.t o.d o.a o.b (minMax true o.t))
/-- MAX_TYPED (R206). -/
def execMaxTyped (o : TypedP) (s : State) : Out := .next (s.typed2 o.g o.t o.d o.a o.b (minMax false o.t))
/-- SETCC (R207). -/
def execSetcc (o : SetccArgs) (s : State) : Out :=
  .next (s.laneFixed o.g (vRegs o.t o.a ++ vRegs o.t o.b) [] fun g x _ l =>
    let r := setCond o.cc o.t g.mode (x.laneRaw g.budget o.t o.a l) (x.laneRaw g.budget o.t o.b l)
    .ok { preds := [(o.pd, r.1)], exc := r.2 })
/-- SHL_TYPED (R208). -/
def execShlTyped (o : TypedP) (s : State) : Out := .next (s.typedShift o true)
/-- SHR_TYPED (R208). -/
def execShrTyped (o : TypedP) (s : State) : Out := .next (s.typedShift o false)
/-- NEG_TYPED (R209). -/
def execNegTyped (o : TypedS) (s : State) : Out := .next (s.typed1 o.g o.t o.t o.d o.a (negOp o.t o.sat))
/-- ABS_TYPED (R209). -/
def execAbsTyped (o : TypedS) (s : State) : Out := .next (s.typed1 o.g o.t o.t o.d o.a (absOp o.t o.sat))
/-- DIV (R210): variable latency. -/
def execDiv (o : TypedB) (s : State) : Out :=
  .next (s.laneVar o.g (vRegs o.t o.a ++ vRegs o.t o.b) (vRegs o.t o.d) fun g x _ l =>
    .ok (resOf x g.budget o.t o.d (divOp o.t o.rm o.sat g.mode (x.laneRaw g.budget o.t o.a l) (x.laneRaw g.budget o.t o.b l))))
/-- SQRT (R210): variable latency. -/
def execSqrt (o : TypedQ) (s : State) : Out := .next (s.typed1v o.g o.t o.d o.a (sqrtOp o.t o.rm o.sat))
/-- CVT (R211). -/
def execCvt (o : CvtArgs) (s : State) : Out := .next (s.typed1 o.g o.t o.u o.d o.a (cvtOp o.t o.u o.rm o.sat))
/-- RNDI (R212). -/
def execRndi (o : TypedN) (s : State) : Out := .next (s.typed1 o.g o.t o.t o.d o.a (rndiOp o.t o.rm))
/-- FCLASS (R213): vd is one 32-bit register. -/
def execFclass (o : TypedU) (s : State) : Out :=
  .next (s.typed1 o.g .n32 o.t o.d o.a fun _ a => (fclassOp o.t a, 0))
/-- SIN (R214, R215): variable latency. -/
def execSin (o : TypedU) (s : State) : Out := .next (s.typed1v o.g o.t o.d o.a (specialOp sinVal o.t))
/-- COS (R214, R215): variable latency. -/
def execCos (o : TypedU) (s : State) : Out := .next (s.typed1v o.g o.t o.d o.a (specialOp cosVal o.t))
/-- RCP (R214, R215): variable latency. -/
def execRcp (o : TypedU) (s : State) : Out := .next (s.typed1v o.g o.t o.d o.a (specialOp rcpVal o.t))
/-- RSQ (R214, R215): variable latency. -/
def execRsq (o : TypedU) (s : State) : Out := .next (s.typed1v o.g o.t o.d o.a (specialOp rsqVal o.t))
/-- EXP2 (R214, R215): variable latency. -/
def execExp2 (o : TypedU) (s : State) : Out := .next (s.typed1v o.g o.t o.d o.a (specialOp exp2Val o.t))
/-- LOG2 (R214, R215): variable latency. -/
def execLog2 (o : TypedU) (s : State) : Out := .next (s.typed1v o.g o.t o.d o.a (specialOp log2Val o.t))

/-- DP4 (R216). -/
def execDp4 (o : Dp4Args) (s : State) : Out :=
  .next (s.onlyJ6 fun s => s.laneFixed o.g [.v o.a, .v o.b, .v o.c] [.v o.d] fun g x _ l =>
    let r := fun k => l.get (x.phys g.budget k)
    .ok (resOf x g.budget .i32 o.d (narrow .i32 (o.sat || modeSat g.mode) (dp4Sum o.u (r o.a) (r o.b) (r o.c)), 0)))

end Sys2Proof.Machine
end

