-- ==== Sys2Proof/Machine/Dispatch.lean ====
section
/-! DEFINITION. The dispatch: one arm per constructor of Instr, each one call of its meaning. -/

namespace Sys2Proof.Machine

open Sys2Proof

def exec (i : Instr) (s : State) : Host.Outcome State Fault Refusal :=
  match i with
  | .launchPacket o => Sys2Proof.Machine.execLaunchPacket o s
  | .launchDispatch o => Sys2Proof.Machine.execLaunchDispatch o s
  | .install o => Sys2Proof.Machine.execInstall o s
  | .eventSend o => Sys2Proof.Machine.execEventSend o s
  | .teamPlacement o => Sys2Proof.Machine.execTeamPlacement o s
  | .clauseFill o => Sys2Proof.Machine.execClauseFill o s
  | .textPageVerify o => Sys2Proof.Machine.execTextPageVerify o s
  | .roundRobinTurn o => Sys2Proof.Machine.execRoundRobinTurn o s
  | .yieldDeferralEnd o => Sys2Proof.Machine.execYieldDeferralEnd o s
  | .variableLatencyResult o => Sys2Proof.Machine.execVariableLatencyResult o s
  | .memoryAccessReturn o => Sys2Proof.Machine.execMemoryAccessReturn o s
  | .copyReturn o => Sys2Proof.Machine.execCopyReturn o s
  | .parkedAccessReplay o => Sys2Proof.Machine.execParkedAccessReplay o s
  | .rcopyLanding o => Sys2Proof.Machine.execRcopyLanding o s
  | .putLanding o => Sys2Proof.Machine.execPutLanding o s
  | .heldPutDelivery o => Sys2Proof.Machine.execHeldPutDelivery o s
  | .tileDelivery o => Sys2Proof.Machine.execTileDelivery o s
  | .accumulatorWrite o => Sys2Proof.Machine.execAccumulatorWrite o s
  | .barrierTimeout o => Sys2Proof.Machine.execBarrierTimeout o s
  | .waitvReread o => Sys2Proof.Machine.execWaitvReread o s
  | .teamSwap o => Sys2Proof.Machine.execTeamSwap o s
  | .swapRestore o => Sys2Proof.Machine.execSwapRestore o s
  | .groupEnd o => Sys2Proof.Machine.execGroupEnd o s
  | .launchComplete o => Sys2Proof.Machine.execLaunchComplete o s
  | .collapse o => Sys2Proof.Machine.execCollapse o s
  | .eccError o => Sys2Proof.Machine.execEccError o s
  | .clusterCheckDrain o => Sys2Proof.Machine.execClusterCheckDrain o s
  | .thermalTrip o => Sys2Proof.Machine.execThermalTrip o s
  | .powerOn o => Sys2Proof.Machine.execPowerOn o s
  | .tileStopSave o => Sys2Proof.Machine.execTileStopSave o s
  | .wheyEntry o => Sys2Proof.Machine.execWheyEntry o s
  | .saveSeal o => Sys2Proof.Machine.execSaveSeal o s
  | .tileRestore o => Sys2Proof.Machine.execTileRestore o s
  | .inFieldScanTest o => Sys2Proof.Machine.execInFieldScanTest o s
  | .scanDrainEnd o => Sys2Proof.Machine.execScanDrainEnd o s
  | .scanPatternRunEnd o => Sys2Proof.Machine.execScanPatternRunEnd o s
  | .scanTestAbort o => Sys2Proof.Machine.execScanTestAbort o s
  | .tileStart o => Sys2Proof.Machine.execTileStart o s
  | .migrateMove o => Sys2Proof.Machine.execMigrateMove o s
  | .migrateProtect o => Sys2Proof.Machine.execMigrateProtect o s
  | .migrateReplicate o => Sys2Proof.Machine.execMigrateReplicate o s
  | .resetCompleteEvent o => Sys2Proof.Machine.execResetCompleteEvent o s
  | .dieResetComplete o => Sys2Proof.Machine.execDieResetComplete o s
  | .clauseHeader o => Sys2Proof.Machine.execClauseHeader o s
  | .addI32 o => Sys2Proof.Machine.execAddI32 o s
  | .addI32Imm o => Sys2Proof.Machine.execAddI32Imm o s
  | .subI32 o => Sys2Proof.Machine.execSubI32 o s
  | .subI32Imm o => Sys2Proof.Machine.execSubI32Imm o s
  | .mulI32 o => Sys2Proof.Machine.execMulI32 o s
  | .mulI32Imm o => Sys2Proof.Machine.execMulI32Imm o s
  | .mulhiI32 o => Sys2Proof.Machine.execMulhiI32 o s
  | .mulhiI32Imm o => Sys2Proof.Machine.execMulhiI32Imm o s
  | .mulhiN32 o => Sys2Proof.Machine.execMulhiN32 o s
  | .mulhiN32Imm o => Sys2Proof.Machine.execMulhiN32Imm o s
  | .minI32 o => Sys2Proof.Machine.execMinI32 o s
  | .minI32Imm o => Sys2Proof.Machine.execMinI32Imm o s
  | .maxI32 o => Sys2Proof.Machine.execMaxI32 o s
  | .maxI32Imm o => Sys2Proof.Machine.execMaxI32Imm o s
  | .minN32 o => Sys2Proof.Machine.execMinN32 o s
  | .minN32Imm o => Sys2Proof.Machine.execMinN32Imm o s
  | .maxN32 o => Sys2Proof.Machine.execMaxN32 o s
  | .maxN32Imm o => Sys2Proof.Machine.execMaxN32Imm o s
  | .and o => Sys2Proof.Machine.execAnd o s
  | .andImm o => Sys2Proof.Machine.execAndImm o s
  | .or o => Sys2Proof.Machine.execOr o s
  | .orImm o => Sys2Proof.Machine.execOrImm o s
  | .xor o => Sys2Proof.Machine.execXor o s
  | .xorImm o => Sys2Proof.Machine.execXorImm o s
  | .andn o => Sys2Proof.Machine.execAndn o s
  | .andnImm o => Sys2Proof.Machine.execAndnImm o s
  | .shl o => Sys2Proof.Machine.execShl o s
  | .shlImm o => Sys2Proof.Machine.execShlImm o s
  | .shrN32 o => Sys2Proof.Machine.execShrN32 o s
  | .shrN32Imm o => Sys2Proof.Machine.execShrN32Imm o s
  | .shrI32 o => Sys2Proof.Machine.execShrI32 o s
  | .shrI32Imm o => Sys2Proof.Machine.execShrI32Imm o s
  | .rol o => Sys2Proof.Machine.execRol o s
  | .rolImm o => Sys2Proof.Machine.execRolImm o s
  | .popc o => Sys2Proof.Machine.execPopc o s
  | .clz o => Sys2Proof.Machine.execClz o s
  | .brev o => Sys2Proof.Machine.execBrev o s
  | .mov o => Sys2Proof.Machine.execMov o s
  | .movImm o => Sys2Proof.Machine.execMovImm o s
  | .absI32 o => Sys2Proof.Machine.execAbsI32 o s
  | .negI32 o => Sys2Proof.Machine.execNegI32 o s
  | .seteqI32 o => Sys2Proof.Machine.execSeteqI32 o s
  | .seteqI32Imm o => Sys2Proof.Machine.execSeteqI32Imm o s
  | .setneI32 o => Sys2Proof.Machine.execSetneI32 o s
  | .setneI32Imm o => Sys2Proof.Machine.execSetneI32Imm o s
  | .setltI32 o => Sys2Proof.Machine.execSetltI32 o s
  | .setltI32Imm o => Sys2Proof.Machine.execSetltI32Imm o s
  | .setleI32 o => Sys2Proof.Machine.execSetleI32 o s
  | .setleI32Imm o => Sys2Proof.Machine.execSetleI32Imm o s
  | .setltN32 o => Sys2Proof.Machine.execSetltN32 o s
  | .setltN32Imm o => Sys2Proof.Machine.execSetltN32Imm o s
  | .setleN32 o => Sys2Proof.Machine.execSetleN32 o s
  | .setleN32Imm o => Sys2Proof.Machine.execSetleN32Imm o s
  | .setgtI32 o => Sys2Proof.Machine.execSetgtI32 o s
  | .setgtI32Imm o => Sys2Proof.Machine.execSetgtI32Imm o s
  | .setgtN32 o => Sys2Proof.Machine.execSetgtN32 o s
  | .setgtN32Imm o => Sys2Proof.Machine.execSetgtN32Imm o s
  | .pmov o => Sys2Proof.Machine.execPmov o s
  | .pnot o => Sys2Proof.Machine.execPnot o s
  | .pand o => Sys2Proof.Machine.execPand o s
  | .por o => Sys2Proof.Machine.execPor o s
  | .pxor o => Sys2Proof.Machine.execPxor o s
  | .ptoi o => Sys2Proof.Machine.execPtoi o s
  | .lid o => Sys2Proof.Machine.execLid o s
  | .addTyped o => Sys2Proof.Machine.execAddTyped o s
  | .subTyped o => Sys2Proof.Machine.execSubTyped o s
  | .mulTyped o => Sys2Proof.Machine.execMulTyped o s
  | .mad o => Sys2Proof.Machine.execMad o s
  | .minTyped o => Sys2Proof.Machine.execMinTyped o s
  | .maxTyped o => Sys2Proof.Machine.execMaxTyped o s
  | .setcc o => Sys2Proof.Machine.execSetcc o s
  | .shlTyped o => Sys2Proof.Machine.execShlTyped o s
  | .shrTyped o => Sys2Proof.Machine.execShrTyped o s
  | .negTyped o => Sys2Proof.Machine.execNegTyped o s
  | .absTyped o => Sys2Proof.Machine.execAbsTyped o s
  | .div o => Sys2Proof.Machine.execDiv o s
  | .sqrt o => Sys2Proof.Machine.execSqrt o s
  | .cvt o => Sys2Proof.Machine.execCvt o s
  | .rndi o => Sys2Proof.Machine.execRndi o s
  | .fclass o => Sys2Proof.Machine.execFclass o s
  | .sin o => Sys2Proof.Machine.execSin o s
  | .cos o => Sys2Proof.Machine.execCos o s
  | .rcp o => Sys2Proof.Machine.execRcp o s
  | .rsq o => Sys2Proof.Machine.execRsq o s
  | .exp2 o => Sys2Proof.Machine.execExp2 o s
  | .log2 o => Sys2Proof.Machine.execLog2 o s
  | .dp4 o => Sys2Proof.Machine.execDp4 o s
  | .shfl o => Sys2Proof.Machine.execShfl o s
  | .swap o => Sys2Proof.Machine.execSwap o s
  | .bcast o => Sys2Proof.Machine.execBcast o s
  | .bcastImm o => Sys2Proof.Machine.execBcastImm o s
  | .rot o => Sys2Proof.Machine.execRot o s
  | .rotImm o => Sys2Proof.Machine.execRotImm o s
  | .prmt o => Sys2Proof.Machine.execPrmt o s
  | .pack o => Sys2Proof.Machine.execPack o s
  | .ld o => Sys2Proof.Machine.execLd o s
  | .st o => Sys2Proof.Machine.execSt o s
  | .atom o => Sys2Proof.Machine.execAtom o s
  | .cas o => Sys2Proof.Machine.execCas o s
  | .deposit o => Sys2Proof.Machine.execDeposit o s
  | .mma o => Sys2Proof.Machine.execMma o s
  | .mmv o => Sys2Proof.Machine.execMmv o s
  | .mmas o => Sys2Proof.Machine.execMmas o s
  | .smovI32 o => Sys2Proof.Machine.execSmovI32 o s
  | .smovI32Imm o => Sys2Proof.Machine.execSmovI32Imm o s
  | .saddI32 o => Sys2Proof.Machine.execSaddI32 o s
  | .saddI32Imm o => Sys2Proof.Machine.execSaddI32Imm o s
  | .ssubI32 o => Sys2Proof.Machine.execSsubI32 o s
  | .ssubI32Imm o => Sys2Proof.Machine.execSsubI32Imm o s
  | .smulI32 o => Sys2Proof.Machine.execSmulI32 o s
  | .smulI32Imm o => Sys2Proof.Machine.execSmulI32Imm o s
  | .smulhiI32 o => Sys2Proof.Machine.execSmulhiI32 o s
  | .smulhiI32Imm o => Sys2Proof.Machine.execSmulhiI32Imm o s
  | .smulhiN32 o => Sys2Proof.Machine.execSmulhiN32 o s
  | .smulhiN32Imm o => Sys2Proof.Machine.execSmulhiN32Imm o s
  | .sminI32 o => Sys2Proof.Machine.execSminI32 o s
  | .sminI32Imm o => Sys2Proof.Machine.execSminI32Imm o s
  | .smaxI32 o => Sys2Proof.Machine.execSmaxI32 o s
  | .smaxI32Imm o => Sys2Proof.Machine.execSmaxI32Imm o s
  | .sshl o => Sys2Proof.Machine.execSshl o s
  | .sshlImm o => Sys2Proof.Machine.execSshlImm o s
  | .sshrN32 o => Sys2Proof.Machine.execSshrN32 o s
  | .sshrN32Imm o => Sys2Proof.Machine.execSshrN32Imm o s
  | .sshrI32 o => Sys2Proof.Machine.execSshrI32 o s
  | .sshrI32Imm o => Sys2Proof.Machine.execSshrI32Imm o s
  | .sand o => Sys2Proof.Machine.execSand o s
  | .sandImm o => Sys2Proof.Machine.execSandImm o s
  | .sor o => Sys2Proof.Machine.execSor o s
  | .sorImm o => Sys2Proof.Machine.execSorImm o s
  | .sxor o => Sys2Proof.Machine.execSxor o s
  | .sxorImm o => Sys2Proof.Machine.execSxorImm o s
  | .sandn o => Sys2Proof.Machine.execSandn o s
  | .sandnImm o => Sys2Proof.Machine.execSandnImm o s
  | .sminN32 o => Sys2Proof.Machine.execSminN32 o s
  | .sminN32Imm o => Sys2Proof.Machine.execSminN32Imm o s
  | .smaxN32 o => Sys2Proof.Machine.execSmaxN32 o s
  | .smaxN32Imm o => Sys2Proof.Machine.execSmaxN32Imm o s
  | .spopc o => Sys2Proof.Machine.execSpopc o s
  | .sclz o => Sys2Proof.Machine.execSclz o s
  | .scmpI32 o => Sys2Proof.Machine.execScmpI32 o s
  | .scmpI32Imm o => Sys2Proof.Machine.execScmpI32Imm o s
  | .smovI64 o => Sys2Proof.Machine.execSmovI64 o s
  | .smovI64Imm o => Sys2Proof.Machine.execSmovI64Imm o s
  | .saddI64 o => Sys2Proof.Machine.execSaddI64 o s
  | .saddI64Imm o => Sys2Proof.Machine.execSaddI64Imm o s
  | .ssubI64 o => Sys2Proof.Machine.execSsubI64 o s
  | .ssubI64Imm o => Sys2Proof.Machine.execSsubI64Imm o s
  | .smulI64 o => Sys2Proof.Machine.execSmulI64 o s
  | .smulI64Imm o => Sys2Proof.Machine.execSmulI64Imm o s
  | .sshlN64 o => Sys2Proof.Machine.execSshlN64 o s
  | .sshlN64Imm o => Sys2Proof.Machine.execSshlN64Imm o s
  | .sshrN64 o => Sys2Proof.Machine.execSshrN64 o s
  | .sshrN64Imm o => Sys2Proof.Machine.execSshrN64Imm o s
  | .scmpI64 o => Sys2Proof.Machine.execScmpI64 o s
  | .bra o => Sys2Proof.Machine.execBra o s
  | .call o => Sys2Proof.Machine.execCall o s
  | .ret o => Sys2Proof.Machine.execRet o s
  | .join o => Sys2Proof.Machine.execJoin o s
  | .msplit o => Sys2Proof.Machine.execMsplit o s
  | .melse o => Sys2Proof.Machine.execMelse o s
  | .splane o => Sys2Proof.Machine.execSplane o s
  | .smodeRd o => Sys2Proof.Machine.execSmodeRd o s
  | .smodeWr o => Sys2Proof.Machine.execSmodeWr o s
  | .smodeClr o => Sys2Proof.Machine.execSmodeClr o s
  | .smodeRm o => Sys2Proof.Machine.execSmodeRm o s
  | .sid o => Sys2Proof.Machine.execSid o s
  | .ldarg o => Sys2Proof.Machine.execLdarg o s
  | .sigchk o => Sys2Proof.Machine.execSigchk o s
  | .trap o => Sys2Proof.Machine.execTrap o s
  | .mark o => Sys2Proof.Machine.execMark o s
  | .patchreq o => Sys2Proof.Machine.execPatchreq o s
  | .tclk o => Sys2Proof.Machine.execTclk o s
  | .sysrd o => Sys2Proof.Machine.execSysrd o s
  | .syswr o => Sys2Proof.Machine.execSyswr o s
  | .sld o => Sys2Proof.Machine.execSld o s
  | .sst o => Sys2Proof.Machine.execSst o s
  | .satom o => Sys2Proof.Machine.execSatom o s
  | .scas o => Sys2Proof.Machine.execScas o s
  | .fence o => Sys2Proof.Machine.execFence o s
  | .waitp o => Sys2Proof.Machine.execWaitp o s
  | .waitv o => Sys2Proof.Machine.execWaitv o s
  | .waitvm o => Sys2Proof.Machine.execWaitvm o s
  | .bar o => Sys2Proof.Machine.execBar o s
  | .cpin o => Sys2Proof.Machine.execCpin o s
  | .cpout o => Sys2Proof.Machine.execCpout o s
  | .gather o => Sys2Proof.Machine.execGather o s
  | .xpand o => Sys2Proof.Machine.execXpand o s
  | .rcopy o => Sys2Proof.Machine.execRcopy o s
  | .put o => Sys2Proof.Machine.execPut o s
  | .stream o => Sys2Proof.Machine.execStream o s
  | .vatset o => Sys2Proof.Machine.execVatset o s
  | .relaunch o => Sys2Proof.Machine.execRelaunch o s
  | .bulkDataIngress o => Sys2Proof.Machine.execBulkDataIngress o s
  | .spillFillComplete o => Sys2Proof.Machine.execSpillFillComplete o s
  | .lateSourceRead o => Sys2Proof.Machine.execLateSourceRead o s
  | .patchVersioned => Sys2Proof.Machine.execPatchVersioned s
  | .patchInPlace => Sys2Proof.Machine.execPatchInPlace s
  | .accessControlEntryWrite => Sys2Proof.Machine.execAccessControlEntryWrite s
  | .partitionDescriptorWrite => Sys2Proof.Machine.execPartitionDescriptorWrite s
  | .partitionControlWrite => Sys2Proof.Machine.execPartitionControlWrite s
  | .scratchpadAllocationWrite => Sys2Proof.Machine.execScratchpadAllocationWrite s
  | .rootTableWrite => Sys2Proof.Machine.execRootTableWrite s
  | .keySlotLoad => Sys2Proof.Machine.execKeySlotLoad s
  | .faultRingWrite => Sys2Proof.Machine.execFaultRingWrite s
  | .traceRingWrite => Sys2Proof.Machine.execTraceRingWrite s
  | .swapPolicySet => Sys2Proof.Machine.execSwapPolicySet s
  | .coreRetireGrantSet => Sys2Proof.Machine.execCoreRetireGrantSet s
  | .invalidateRange => Sys2Proof.Machine.execInvalidateRange s
  | .partitionReset => Sys2Proof.Machine.execPartitionReset s
  | .dieReset => Sys2Proof.Machine.execDieReset s
  | .clusterRebuild => Sys2Proof.Machine.execClusterRebuild s
  | .clusterRelease => Sys2Proof.Machine.execClusterRelease s
  | .debugResume => Sys2Proof.Machine.execDebugResume s
  | .debugStep => Sys2Proof.Machine.execDebugStep s
  | .debugTerminate => Sys2Proof.Machine.execDebugTerminate s
  | .patchSubmit => Sys2Proof.Machine.execPatchSubmit s
  | .powerLimitSet => Sys2Proof.Machine.execPowerLimitSet s
  | .counterRead => Sys2Proof.Machine.execCounterRead s
  | .attestationReport => Sys2Proof.Machine.execAttestationReport s
  | .thermalResume => Sys2Proof.Machine.execThermalResume s
  | .journalClear => Sys2Proof.Machine.execJournalClear s
  | .ownerEndpointChange => Sys2Proof.Machine.execOwnerEndpointChange s
  | .dieOutOfService => Sys2Proof.Machine.execDieOutOfService s
  | .migrationSubmit => Sys2Proof.Machine.execMigrationSubmit s
  | .splinterPoolSet => Sys2Proof.Machine.execSplinterPoolSet s
  | .swapPoolSet => Sys2Proof.Machine.execSwapPoolSet s
  | .unknownOp => Sys2Proof.Machine.execUnknownOp s
  | .regang => Sys2Proof.Machine.execRegang s
  | .yield => Sys2Proof.Machine.execYield s
  | .exit => Sys2Proof.Machine.execExit s
  | .ienter => Sys2Proof.Machine.execIenter s
  | .brk => Sys2Proof.Machine.execBrk s
  | .powerLoss => Sys2Proof.Machine.execPowerLoss s

end Sys2Proof.Machine
end

