-- ==== Sys2Proof/Machine/Schedule.lean ====
section
/-! DEFINITION. An issue opportunity of a sub-core (R126, R165, R179, R180): the chosen gang starts its clause, or issues one
instruction with all its plane passes. -/

namespace Sys2Proof.Machine

/-! The checks before an instruction issues (R125, R131, R142, R165, R166). -/

/-- The registers that a lane instruction reads and writes, for the copies of several planes (R166). -/
def laneRegs : Instr → List Reg × List Reg
  | .addI32 o | .subI32 o | .mulI32 o | .mulhiI32 o | .mulhiN32 o | .minI32 o | .maxI32 o | .minN32 o | .maxN32 o
  | .and o | .or o | .xor o | .andn o | .shl o | .shrN32 o | .shrI32 o | .rol o | .shfl o | .bcast o | .rot o
  | .pack o => ([.v o.a, .v o.b], [.v o.d])
  | .addI32Imm o | .subI32Imm o | .mulI32Imm o | .mulhiI32Imm o | .mulhiN32Imm o | .minI32Imm o | .maxI32Imm o
  | .minN32Imm o | .maxN32Imm o | .andImm o | .orImm o | .xorImm o | .andnImm o | .shlImm o | .shrN32Imm o
  | .shrI32Imm o | .rolImm o | .bcastImm o | .rotImm o => ([.v o.a], [.v o.d])
  | .popc o | .clz o | .brev o | .mov o | .absI32 o | .negI32 o => ([.v o.a], [.v o.d])
  | .movImm o => ([], [.v o.d])
  | .seteqI32 o | .setneI32 o | .setltI32 o | .setleI32 o | .setltN32 o | .setleN32 o | .setgtI32 o
  | .setgtN32 o => ([.v o.a, .v o.b], [])
  | .seteqI32Imm o | .setneI32Imm o | .setltI32Imm o | .setleI32Imm o | .setltN32Imm o | .setleN32Imm o
  | .setgtI32Imm o | .setgtN32Imm o => ([.v o.a], [])
  | .ptoi o => ([], [.v o.d])
  | .lid o => ([], [.v o.d])
  | .addTyped o | .subTyped o | .mulTyped o | .div o => (vRegs o.t o.a ++ vRegs o.t o.b, vRegs o.t o.d)
  | .mad o => (vRegs o.t o.a ++ vRegs o.t o.b ++ vRegs o.t o.c, vRegs o.t o.d)
  | .minTyped o | .maxTyped o => (vRegs o.t o.a ++ vRegs o.t o.b, vRegs o.t o.d)
  | .setcc o => (vRegs o.t o.a ++ vRegs o.t o.b, [])
  | .shlTyped o | .shrTyped o => (vRegs o.t o.a ++ [.v o.b], vRegs o.t o.d)
  | .negTyped o | .absTyped o => (vRegs o.t o.a, vRegs o.t o.d)
  | .sqrt o => (vRegs o.t o.a, vRegs o.t o.d)
  | .cvt o => (vRegs o.u o.a, vRegs o.t o.d)
  | .rndi o => (vRegs o.t o.a, vRegs o.t o.d)
  | .fclass o => (vRegs o.t o.a, [.v o.d])
  | .sin o | .cos o | .rcp o | .rsq o | .exp2 o | .log2 o => (vRegs o.t o.a, vRegs o.t o.d)
  | .dp4 o => ([.v o.a, .v o.b, .v o.c], [.v o.d])
  | .swap o => ([.v o.a], [.v o.d])
  | .prmt o => ([.v o.a, .v o.b, .v o.c], [.v o.d])
  | .ld o => (vPair o.a, vRegs o.t o.d)
  | .st o => (vPair o.a ++ vRegs o.t o.b, [])
  | .atom o => (vPair o.a ++ vRegs o.t o.b, vRegs o.t o.d)
  | .cas o => (vPair o.a ++ vRegs o.t o.b ++ vRegs o.t o.c, vRegs o.t o.d)
  | .deposit o => (.v o.a :: vRun o.b 4, [])
  | _ => ([], [])

/-- The fault that a rejected word raises (R165, R167). -/
def rejectFault : Reject → FaultInfo
  | .illegalInstruction => { cls := .illegalInstruction }
  | .illegalEncoding c => { cls := .illegalEncoding, reason := c }

/-- Lane opcodes 0x3E and 0x52 and scalar opcode 0x4E are marked J6 (R160, R161). -/
def isJ6 (w : Word) : Bool :=
  let op := bits w 23 7
  if bit w 31 then op == 0x4E else op == 0x3E || op == 0x52

/-- The extension word of plane p's word is there when X = 1 calls for it (R142). -/
def Slice.whole (x : Slice) (p : Fin 4) : Bool :=
  match x.wordAt p with
  | some w => !bit w 30 || (((x.planeWords p)[x.pos + 1]?).isSome)
  | none => false

/-- The selectors that the gang's groups decide are legal: the distance of a SWAP (R159, R219). -/
def State.selectorOk (s : State) : Instr → Bool
  | .swap o => s.swapLegal o.m.val
  | _ => true

/-- The instruction of plane p's copy, or the fault of R165 up to the encoding checks. -/
def State.copyInstr (s : State) (gen : Nat) (x : Slice) (p : Fin 4) : Except FaultInfo Instr :=
  match x.wordAt p with
  | none => .error { cls := .illegalInstruction }
  | some w =>
    if !x.whole p then .error { cls := .illegalInstruction }
    else if isJ6 w && gen == 5 then .error { cls := .unimplementedGeneration }
    else
      match decode w.toNat (x.extAt p).toNat with
      | .ok i => if s.selectorOk i then .ok i else .error { cls := .illegalEncoding, reason := 0xE }
      | .error r => .error (rejectFault r)

/-- The plane-alignment fault of plane p's copy of the instruction (R125 reasons 0x2 to 0x4). -/
def alignFault (l : Launch) (x : Slice) (w : Word) (p : Fin 4) : Option FaultInfo :=
  let fail := fun (r : Nat) => some ({ cls := .planeAlignment, reason := r } : FaultInfo)
  let lane := !bit w 31
  if !l.hasPlane p then (if lane then fail 4 else none)
  else if p = 0 then none
  else
    match x.wordAt p with
    | none => fail (if lane then 2 else 3)
    | some v =>
      if lane then (if bit v 31 != bit w 31 || bit v 30 != bit w 30 then fail 2 else none)
      else if v != w || x.extAt p != x.extAt 0 then fail 3
      else none

/-- The first plane of a list at which something is found. -/
def firstPlane {α : Type} (f : Fin 4 → Option α) : List (Fin 4) → Option (Fin 4 × α)
  | [] => none
  | p :: r => match f p with
    | some a => some (p, a)
    | none => firstPlane f r

/-- The instructions of the passes, by plane, or the fault of the lowest plane whose copy is not legal (R126, R166). -/
def State.copiesOf (s : State) (gen : Nat) (x : Slice) (check : List (Fin 4)) :
    Except (Fin 4 × FaultInfo) (List (Fin 4 × Instr)) :=
  match firstPlane (fun p => match s.copyInstr gen x p with
      | .error f => some f
      | .ok _ => none) check with
  | some e => .error e
  | none => .ok (check.filterMap fun p => match s.copyInstr gen x p with
      | .ok i => some (p, i)
      | .error _ => none)

/-- Dependence faults of the lowest copy that has one (R166). -/
def State.copyFaults (s : State) : List (Fin 4 × Instr) → List (Slice × Rec)
  | [] => []
  | (p, i) :: r =>
    match s.members.filterMap fun m =>
        (m.2.dependence m.1.budget (laneRegs i).1 (laneRegs i).2).map fun f => (m.2, mkRec m.1 m.2 p f) with
    | [] => s.copyFaults r
    | fs => fs

/-! One instruction. -/

/-- The passes of an instruction, in ascending plane order (R126, R127). -/
def State.passes (s : State) : List (Fin 4 × Instr) → Out
  | [] => .next s
  | (p, i) :: r =>
    match exec i { s with cur := { s.cur with plane := p, last := r.isEmpty } } with
    | .next t => { t with cur := { t.cur with first := false } }.passes r
    | o => o

/-- A matrix instruction: it issues once for each group. -/
def isMatrix (i : Instr) : Bool := (matArgs i).isSome

/-- Instructions before which slice stop holds a slice (R368). -/
def synchronises : Instr → Bool
  | .regang | .exit => true
  | .bar _ => true
  | i => isMatrix i

/-- Instructions that a gang issues once for each of its groups (R184). -/
def perGroupInstr : Instr → Bool
  | .waitp _ | .waitv _ | .waitvm _ | .bar _ | .regang => true
  | i => isMatrix i

/-- The passes of a lane instruction whose copies are given: those of the occupied planes, plane 0's when none is, or the
one copy that a matrix instruction issues (R126, R306). -/
def passesOf (occ : List (Fin 4)) (is : List (Fin 4 × Instr)) : List (Fin 4 × Instr) :=
  match is.filter fun p => occ.contains p.1 with
  | [] => is
  | ps => match ps.find? fun p => isMatrix p.2 with
    | some p => [p]
    | none => ps

/-- How the checks before an issue end: a fault of a plane's copy, or the copies that have been checked and those of the
passes. -/
def State.judgeIssue (s : State) (t : Team) (l : Launch) (gang : Nat) (x : Slice) :
    Except (Fin 4 × FaultInfo) (List (Fin 4 × Instr) × List (Fin 4 × Instr)) :=
  match x.wordAt 0 with
  | none => .error (0, { cls := .illegalInstruction })
  | some w =>
    if x.nth > 16 then .error (0, { cls := .illegalEncoding, reason := 0xF })
    else if !x.whole 0 then .error (0, { cls := .illegalInstruction })
    else
      let occ := t.occupied gang
      match firstPlane (alignFault l x w) occ with
      | some e => .error e
      | none =>
        let gen := Config.generation t.die.val
        if bit w 31 then (s.copiesOf gen x [0]).map fun is => (is, is)
        else (s.copiesOf gen x (if occ.contains 0 then occ else 0 :: occ)).map fun is => (is, passesOf occ is)

/-- Slices that slice stop holds before the instruction (R368). -/
def State.heldBefore (s : State) (is : List (Fin 4 × Instr)) : Bool :=
  is.any (fun p => synchronises p.2) && s.members.any fun m => m.2.dbg == .stopSoon

/-- Issues that an instruction takes (R180, R184). -/
def State.issuesOf (s : State) (is : List (Fin 4 × Instr)) : Nat :=
  if is.any fun p => perGroupInstr p.2 then max 1 s.gangGroups.length else max 1 is.length

/-- The slice's instruction is the last of its clause. -/
def Slice.atLast (x : Slice) : Bool :=
  match x.wordAt 0 with
  | some w => decide (x.pos + wordsOf w ≥ (x.planeWords 0).length)
  | none => true

/-- A slice whose instruction has issued: a step has been made (R369), and the yield of its clause's header defers it once the
last instruction has issued, though that waits (R182). -/
def Slice.issuedOnce (x : Slice) : Slice :=
  let y := if x.dbg = .stepping then { x with dbg := .stepped } else x
  if y.inClause && y.atLast && !y.exited && (y.hold != .none || y.sdone) then
    { y with defer := max y.defer (8 * y.yieldHint.val), yieldHint := 0 }
  else y

/-- After an issue of the slices named by group and number: waits that can end have ended, and flags that nothing holds are
clear (R132). -/
def State.afterIssue (s : State) (uid : Nat) (ms : List (Nat × Nat)) : State :=
  (s.updTeam uid (·.mapGroups fun g => g.mapSlices fun x =>
    if ms.contains (g.num, x.num) then x.issuedOnce else x)).rendezvous uid

/-- The issue of an instruction joins the order of each group of the gang (R264): one that completes slices of an earlier
issue joins at that one. -/
def State.noteIssue (s : State) : State :=
  if s.members.any fun m => m.2.sdone || m.2.isParked then s
  else s.updTeam s.cur.team (·.mapGroups fun g => if (g.inCur s.cur).isEmpty then g else g.noteIssue (g.gangMask s.cur.gang))

/-- The issuing gang issues the instruction whose copies and passes are given, once no dependence of a copy forbids it. -/
def State.issueInstr (s : State) (cs is : List (Fin 4 × Instr)) : Out :=
  match if cs.length ≤ 1 then [] else s.copyFaults cs with
  | [] => s.noteIssue.passes is
  | fs => .next (s.preciseTraps fs)

/-- The issuing gang starts the clause at its offset (R125 reason 0x1, R131, R132): this takes no issue. -/
def State.issueHeader (s : State) (t : Team) (l : Launch) (x : Slice) : Out :=
  match x.wordAt 0 with
  | none => .next (s.raiseGang 0 { cls := .illegalInstruction })
  | some w =>
    if !isHeader w then .next (s.raiseGang 0 (branchFault x.offset))
    else
      match firstPlane (fun p => if l.hasPlane p && x.wordAt p != some w then some () else none) (t.occupied s.cur.gang) with
      | some (p, _) => .next (s.raiseGang p { cls := .planeAlignment, reason := 1 })
      | none =>
        match decode w.toNat 0 with
        | .ok i => exec i s
        | .error r => .next (s.raiseGang 0 (rejectFault r))

/-- An outcome with f applied to a next state. -/
def mapNext (o : Out) (f : State → State) : Out :=
  match o with
  | .next s => .next (f s)
  | r => r

/-- The gang issues the instruction at its offset, unless slice stop holds slices before it (R180, R368). -/
def State.serveInstr (s : State) (t : Team) (l : Launch) (x : Slice) (k : Fin 4) (pos : Nat × Nat) : Out :=
  let ms := s.members.map fun m => (m.1.num, m.2.num)
  let begin := fun (n : Nat) => (s.countIssues t.die t.core k n pos).endReport t.die t.core t.uid (ms.map (·.1))
  match s.judgeIssue t l s.cur.gang x with
  | .error (p, f) => .next ((begin 1).raiseGang p f)
  | .ok (cs, is) =>
    if s.heldBefore is then .next (s.mapGang fun _ y => if y.dbg == .stopSoon then { y with dbg := .stopped } else y)
    else mapNext ((begin (s.issuesOf is)).issueInstr cs is) fun s1 => s1.afterIssue t.uid ms

/-- The chosen gang's turn. The clause header takes no issue; an instruction takes one for each pass or group (R180). -/
def State.serveGang (s : State) (k : Fin 4) (q : Cand) : Out :=
  match s.team? q.team with
  | none => .next s
  | some t =>
    match s.launch? t.launch, (t.members q.gang).find? fun m => !m.2.sdone with
    | some l, some m =>
      let s1 := { s with cur := { team := q.team, gang := q.gang, before := t.groups } }
      mapNext (if m.2.inClause then s1.serveInstr t l m.2 k q.pos else s1.issueHeader t l m.2) fun s2 => { s2 with cur := {} }
    | _, _ => .next s

/-- An issue opportunity of a sub-core (R180): the chosen gang has its turn, or nothing issues. One at which no gang is ready
ends the deferrals there (R182). -/
def State.issue (s : State) (d : Fin 8) (c : Nat) (k : Fin 4) : Out :=
  let s1 := if (s.ready d c k).isEmpty then s.endYields d c k else s
  match (s1.sub d c k).pick (s1.ready d c k) with
  | none => .next s1
  | some q => s1.serveGang k q

end Sys2Proof.Machine
end

