-- ==== Sys2Proof/Machine/Agenda.lean ====
section
/-! DEFINITION. Turns (log 1): what a turn of the agenda does, the turn that the machine takes when the agenda is empty, and a
machine that is about to run one given instruction. -/

namespace Sys2Proof.Machine

/-! Turns. -/

/-- Steps of the package's agents, the rows of the opcode table that no program and no command issues. -/
def isEvent : Instr → Bool
  | .launchPacket _ | .launchDispatch _ | .install _ | .eventSend _ | .teamPlacement _ | .clauseFill _ | .textPageVerify _
  | .roundRobinTurn _ | .yieldDeferralEnd _ | .variableLatencyResult _ | .memoryAccessReturn _ | .copyReturn _
  | .rcopyLanding _ | .putLanding _ | .heldPutDelivery _ | .tileDelivery _ | .accumulatorWrite _ | .lateSourceRead _
  | .spillFillComplete _ | .barrierTimeout _ | .waitvReread _ | .parkedAccessReplay _ | .teamSwap _ | .swapRestore _
  | .groupEnd _ | .launchComplete _ | .collapse _ | .eccError _ | .clusterCheckDrain _ | .thermalTrip _ | .powerOn _
  | .powerLoss | .tileStopSave _ | .wheyEntry _ | .saveSeal _ | .tileRestore _ | .inFieldScanTest _ | .scanDrainEnd _
  | .scanPatternRunEnd _ | .scanTestAbort _ | .tileStart _ | .migrateMove _ | .migrateProtect _ | .migrateReplicate _
  | .resetCompleteEvent _ | .dieResetComplete _ | .bulkDataIngress _ | .patchVersioned | .patchInPlace => true
  | _ => false

/-- The instruction that carries out a command, by its op and, for ops 0x0E and 0x0F, its mode (R405). -/
def commandInstr (c : MgmtCmd) : Instr :=
  match c.op.toNat with
  | 0x01 => .accessControlEntryWrite
  | 0x02 => .partitionDescriptorWrite
  | 0x03 => .partitionControlWrite
  | 0x04 => .scratchpadAllocationWrite
  | 0x05 => .rootTableWrite
  | 0x06 => .keySlotLoad
  | 0x07 => .faultRingWrite
  | 0x08 => .traceRingWrite
  | 0x09 => .swapPolicySet
  | 0x0A => .coreRetireGrantSet
  | 0x0B => .invalidateRange
  | 0x0C => .partitionReset
  | 0x0D => .dieReset
  | 0x10 => .patchSubmit
  | 0x11 => .powerLimitSet
  | 0x12 => .counterRead
  | 0x13 => .attestationReport
  | 0x14 => .thermalResume
  | 0x15 => .journalClear
  | 0x16 => .ownerEndpointChange
  | 0x17 => .dieOutOfService
  | 0x18 => .migrationSubmit
  | 0x19 => .splinterPoolSet
  | 0x1A => .swapPoolSet
  | 0x0E => if c.operand0 = 1 then .clusterRelease else .clusterRebuild
  | 0x0F => if c.operand0 = 1 then .debugStep else if c.operand0 = 2 then .debugTerminate else .debugResume
  | _ => .unknownOp

/-- A command is carried out by the package controller. -/
def State.runCommand (s : State) (c : MgmtCmd) : Out := exec (commandInstr c) { s.msg (portDie c.port) 12 with mgmt := c }

/-- A near or far die is being reset: the next command waits (R405, R407). -/
def State.dieResetting (s : State) : Bool := s.dies.toList.any (·.resetting.isSome)

/-- A management message arrives: its length, then its source, are checked; commands are carried out one at a time (R69,
R405). -/
def State.arrive (s : State) (c : MgmtCmd) : Out :=
  if c.tail.length ≠ 40 then .next (s.countMalformed c.port)
  else if c.source ≠ s.owner then .next s.countUnmatched
  else if s.dieResetting || !s.commands.isEmpty then .next { s with commands := s.commands ++ [c] }
  else s.runCommand c

/-- The oldest waiting command is carried out. -/
def State.nextCommand (s : State) : Out :=
  match s.commands with
  | [] => .next s
  | c :: r => if s.dieResetting then .next s else { s with commands := r }.runCommand c

/-- A die caches the leaf that its walk finds, when a walk as a package agent meets no fault (R108). -/
def State.cache (s : State) (d : Fin 14) (p : Fin 16) (va : Nat) : State :=
  match s.cached d.val p.val va, s.leafFor p.val va with
  | none, .ok (level, _, e) =>
    let b := leafBits level e
    if (s.judgeLeaf p.val .agent level e).isNone then
      { s with tlb := s.tlb ++ [{ die := d, partition := p, va := va / 2 ^ b * 2 ^ b, bits := b, leaf := e }] }
    else s
  | _, _ => s

/-- A die forgets what it has cached for an address. -/
def State.forget (s : State) (d : Fin 14) (p : Fin 16) (va : Nat) : State :=
  { s with tlb := s.tlb.filter fun c =>
      !(c.die == d && c.partition == p && decide (c.va ≤ va) && decide (va < c.va + 2 ^ c.bits)) }

/-- A turn without the reports that follow it. -/
def State.act (s : State) (t : Turn) : Out :=
  match t with
  | .event i => if isEvent i then exec i s else .next s
  | .issue d c k => s.issue d c k
  | .mgmt c => s.arrive c
  | .command => s.nextCommand
  | .early r a => .next (s.readEarly r.team r.group r.op a)
  | .request r k => .next (s.sendRequest r.team r.group r.op k)
  | .ask t g k => .next (s.askWait t g k)
  | .cache d p va => .next (s.cache d p va.toNat)
  | .forget d p va => .next (s.forget d p va.toNat)

/-- A turn is carried out; a core that it has made all-waiting reports (R99). -/
def State.turn (s : State) (t : Turn) : Out := mapNext (s.act t) State.reports

/-! The machine's own turns. -/

/-- Turns that may bring an operation of a team nearer to its end. -/
def opTurns (team group : Nat) (o : Op) : List Turn :=
  let r : OpRef := { team := team, group := group, op := o.id }
  ([.lateSourceRead r, .variableLatencyResult r, .tileDelivery r].map .event) ++
  (List.range o.job.picks).flatMap fun k =>
    let q : PartRef := { team := team, group := group, op := o.id, pick := k }
    [.event (.memoryAccessReturn q), .event (.copyReturn q), .event (.accumulatorWrite q)]

/-- Turns for the text that a gang needs. -/
def State.textTurns (s : State) (t : Team) (k : Nat) : List Turn :=
  match s.launch? t.launch, (t.members k).head? with
  | some l, some m =>
    if !t.needsFill l k then []
    else
      match s.fillGang t l k m.2 with
      | .page pg _ _ => [.event (.textPageVerify { die := t.die, launch := l.id, page := pg })]
      | .buf _ => [.event (.clauseFill { team := t.uid, gang := k })]
  | _, _ => []

/-- Turns of a team, but for its issues and value waits. -/
def State.teamTurns (s : State) (t : Team) : List Turn :=
  t.groups.flatMap (fun g => g.ops.flatMap (opTurns t.uid g.num)) ++
  t.gangs.flatMap (fun k => .event (.spillFillComplete { team := t.uid, gang := k }) :: s.textTurns t k) ++
  t.groups.map fun g => .event (.groupEnd { team := t.uid, group := g.num })

/-- The runs of a landing that have their bytes, and a put's counter. -/
def landingTurns (x : Landing) : List Turn :=
  let runs := (0 :: x.parts.map (·.1)).map fun off =>
    ({ landing := x.id, start := off, granules := x.parts.length } : LandingArgs)
  runs.flatMap fun r =>
    if x.put then [.event (.putLanding r), .event (.heldPutDelivery r)] else [.event (.rcopyLanding r)]

/-- Cores that could take a team of a launch, in ascending order. -/
def placementTurns (l : Launch) : List Turn :=
  dies8.flatMap fun d => (List.range (Config.cores d.val)).map fun c =>
    .event (.teamPlacement { launch := l.id, die := d, core := c })

/-- Turns of a tile that has a command. -/
def State.tileTurns (s : State) (x : Tile) : List Turn :=
  let r : CoreRef := { die := x.die, core := x.core }
  let refs := (s.teamsOn x.die x.core).flatMap Team.requests ++ s.landings.map fun l => .put l.id
  let caught := refs.map fun q => Turn.event (.wheyEntry { die := x.die, core := x.core, what := q })
  (if x.state == .open || x.state == .held then [] else caught) ++
    [.event (.saveSeal r), .event (.tileStopSave r), .event (.tileRestore r), .event (.inFieldScanTest r),
     .event (.scanTestAbort { die := x.die, core := x.core, elapsed := 0 }), .event (.scanDrainEnd r),
     .event (.scanPatternRunEnd r), .event (.tileStart r)]

/-- Cores that a saved team could return to. -/
def State.restoreTurns (s : State) : List Turn :=
  (List.range s.images.length).flatMap fun i => dies8.flatMap fun d => (List.range (Config.cores d.val)).map fun c =>
    .event (.swapRestore { image := i, die := d, core := c })

/-- Turns of the package's agents that no team asks for. -/
def State.agentTurns (s : State) : List Turn :=
  (s.launches.map fun l => .event (.launchComplete l.id)) ++ s.launches.flatMap placementTurns ++
  [.event (.launchDispatch 0), .event (.launchDispatch 1), .event (.install 0), .event (.install 1)] ++
  (s.collapsing.map fun c => .event (.collapse { partition := c.1, va := c.2 })) ++
  (s.replays.map fun r => .event (.parkedAccessReplay { partition := r.1, va := BitVec.ofNat 64 r.2.1 })) ++
  [.event .patchVersioned, .event .patchInPlace] ++
  ([0, 1] : List (Fin 2)).flatMap (fun o => [.event (.migrateMove o), .event (.migrateProtect o), .event (.migrateReplicate o)]) ++
  s.tiles.flatMap s.tileTurns ++ s.restoreTurns

/-- Turns that send something out, or that the controller takes. -/
def outTurns : List Turn :=
  .event (.eventSend none) :: ((List.finRange 16).map fun p => .event (.eventSend (some p))) ++
  ((List.finRange 16).map fun p => .event (.resetCompleteEvent p)) ++
  ((List.finRange 14).map fun d => .event (.dieResetComplete d)) ++ [.command]

/-- What the machine may do by itself and can do only so often, until a gang issues again or a value wait reads again, in the
order in which it is tried. Time-outs, swaps, errors and trips are the agenda's alone. -/
def State.ahead (s : State) : List Turn :=
  outTurns ++ s.landings.flatMap landingTurns ++ s.teams.flatMap s.teamTurns ++ s.agentTurns

/-- Issue opportunities and reads of value waits, which may go on without an end, each with its place in a round that serves
every sub-core once for either. -/
def State.rounds (s : State) : List (Nat × Turn) :=
  let place := fun (d : Fin 8) (c : Nat) (k : Fin 4) => (d.val * 256 + c % 256) * 4 + k.val
  s.teams.flatMap fun t =>
    ([0, 1, 2, 3].map fun k => (place t.die t.core k, .issue t.die t.core k)) ++
    t.gangs.filterMap fun k => (t.members k).head?.map fun m =>
      (8192 + place t.die t.core m.1.place.sub, .event (.waitvReread { team := t.uid, gang := k }))

/-- The turn changes the state. -/
def State.moves (s : State) (t : Turn) : Bool :=
  match s.turn t with
  | .next s1 => s1 != s
  | _ => false

/-- The length of a round. -/
def roundLength : Nat := 16384

/-- How far on a place lies in the machine's rounds. -/
def State.distance (s : State) (place : Nat) : Nat := (place + roundLength - s.rot % roundLength) % roundLength

/-- The turns of the next place in the rounds at which something moves, with the distance to it (R98). -/
def State.nextPlaced (s : State) : Nat × List Turn :=
  let ts := s.rounds.filter fun x => s.moves x.2
  match ts.map fun x => s.distance x.1 with
  | [] => (0, [])
  | d :: r =>
    let n := r.foldl min d
    (n, (ts.filter fun x => s.distance x.1 == n).map (·.2))

/-- What the machine does by itself, and how far its rounds have come then: the first turn ahead that changes the state; else that
of the next place in the rounds, whose turns change from round to round; else an issue opportunity at which nothing issues. -/
def State.autoTurn (s : State) : Turn × Nat :=
  match s.ahead.find? s.moves with
  | some t => (t, s.rot)
  | none =>
    let p := s.nextPlaced
    (p.2.getD (s.rot / roundLength % max 1 p.2.length) (.issue 0 0 0), s.rot + p.1 + 1)

/-! A given instruction next. -/

/-- The words of an instruction after a clause header that waits on nothing. -/
def fetchWords (w : Nat) : List Word := [0xBF8007F8, BitVec.ofNat 32 w, BitVec.ofNat 32 (w / 2 ^ 32)]

/-- A launch of one team of one group of eight lanes, bound to text of one page. -/
def fetchLaunch (id : Nat) : Launch :=
  { id := id, num := 0, partition := 0, queue := none, tag := 0, priority := 0, policy := 0, privileged := false, object := 0, code := 0,
    version := 0,
    sections := { size := 8192, kernels := 1, kernelTable := 64, text5 := 4096, size5 := 4096, text6 := 0, size6 := 0,
                  data := 8192, dataSize := 0, hashes := 8192 },
    header := { kernel := 0, entry5 := 0, entry6 := noEntry, len5 := 4096, len6 := 0, width := 8, producers := 0, consumers := 1,
                budgetP := 0, budgetC := 64, tokens := 0, planeMask := 1, stride := 0, dataReg := 60, gens := 3, sharedKiB := 0,
                spill := 0, argBytes := 0, flags := 0 },
    dimX := 1, dimY := 1, dimZ := 1, args := Vector.replicate 16 0, placed := 1, exited := 0, failed := false, dieReset := false,
    first := none, registered := none, die := none, groups := [] }

/-- The slice holds the clause: at its header when the instruction is one, else past it. -/
def Slice.holding (w : Nat) (x : Slice) : Slice :=
  let ws := fetchWords w
  let b := fun (l : List Word) => some { base := 0, planes := (Vector.replicate 4 []).set 0 l : ClauseBuf }
  if isHeader (BitVec.ofNat 32 w) then { x with cbuf := b (BitVec.ofNat 32 w :: ws.drop 2) }
  else { x with offset := 4, inClause := true, cbuf := b ws }

/-- The team of that launch, alone on core 0 of die 0. -/
def fetchTeam (uid launch w : Nat) : Team :=
  let g := Group.start (fetchLaunch launch) 6 0 true { sub := 0, entry := 0, base := 0, lanePos := 0, start := 0 } 0 none
  { uid := uid, launch := launch, partition := 0, die := 0, core := 0, lin := 0, x := 0, y := 0, z := 0,
    groups := [g.mapSlices (Slice.holding w)], shared := {}, sharedPoison := [], barriers := Vector.replicate 16 {}, streams := [],
    tokens := [], nextGang := 1, frozen := false }

/-- The machine as it stands, with that team alone resident and its turn next. -/
def State.holding (s : State) (w : Nat) : State :=
  { s with launches := [fetchLaunch s.nextId], teams := [fetchTeam s.nextUid s.nextId w], subs := [], drained := [],
           nextId := s.nextId + 1, nextUid := s.nextUid + 1, agenda := [.issue 0 0 0] }

end Sys2Proof.Machine
end

