-- ==== Sys2Proof/Machine/Step.lean ====
section
/-! DEFINITION. One step of the machine: the next turn of the agenda, or the turn that the machine takes by itself (log 1). -/

namespace Sys2Proof.Machine

/-- A turn is carried out; without power only bring-up is (R400). -/
def State.take (s : State) (t : Turn) : Out :=
  match t with
  | .event (.powerOn o) => exec (.powerOn o) s
  | _ => if s.powered then s.turn t else .fault .poweredOff

def step (s : State) : Host.Outcome State Fault Refusal :=
  match s.agenda with
  | t :: r => { s with agenda := r }.take t
  | [] => { s with rot := s.autoTurn.2 }.take s.autoTurn.1

/-- The machine with an instruction of nbits bits where its next step fetches, as the only team's next word (log 47). -/
def State.withFetchWord (s : State) (nbits w : Nat) : State := s.holding (w % 2 ^ nbits)

end Sys2Proof.Machine
end

