-- ==== Sys2Proof/Safety.lean ====
section
/-! DEFINITION. The words that claims are stated in: the invariants of the state, the conditions under which an instruction
runs undisturbed, and the plain shapes of what it then does. -/

namespace Sys2Proof.Machine

/-! Invariants. -/

/-- Every memory of a team is in its canonical form. -/
def Team.tidy (t : Team) : Bool := t.shared.wf && t.groups.all fun g => g.stack.wf

/-- The shared memories and spill stacks of every team, resident or saved, are in their canonical form. -/
def State.ChipTidy (s : State) : Prop :=
  (∀ t ∈ s.teams, t.tidy = true) ∧ ∀ i ∈ s.images, ∀ t ∈ i.teams, t.1.tidy = true

/-- Groups of a team, and slices of a group, carry different numbers. -/
def Team.named (t : Team) : Bool :=
  decide (t.groups.map (·.num)).Nodup && t.groups.all fun g => decide (g.slices.map (·.num)).Nodup

/-- Teams, resident or waiting in an image, carry different names that the next one does not have; their groups and slices
differ in number. An image that has been restored is kept, and holds no team that waits. -/
def State.named (s : State) : Bool :=
  let ts := s.teams ++ (s.images.filter (·.live)).flatMap fun i => i.teams.map (·.1)
  decide (ts.map (·.uid)).Nodup && ts.all fun t => decide (t.uid < s.nextUid) && t.named

/-- The record that a slice keeps of deferred lanes names its own group and slice. -/
def Team.ownRecords (t : Team) : Bool := t.groups.all fun g => g.slices.all fun x => match x.dRec with
  | some r => r.group == BitVec.ofNat 8 g.num && r.slice == BitVec.ofNat 8 x.num
  | none => true

/-- So it does in every team, resident or saved. -/
def State.ownRecords (s : State) : Bool := s.teams.all (·.ownRecords) && s.images.all fun i => i.teams.all (·.1.ownRecords)

/-- The operations of a group have names that come before its next one. -/
def Team.freshOps (t : Team) : Bool := t.groups.all fun g => g.ops.all fun o => decide (o.id < g.nextOp)

/-- So they have in every team, resident or saved. -/
def State.freshOps (s : State) : Bool := s.teams.all (·.freshOps) && s.images.all fun i => i.teams.all (·.1.freshOps)

/-! Looking at the state. -/

/-- Slice k of group n of team u. -/
def State.sliceAt (s : State) (u n k : Nat) : Option Slice := (s.group? u n).bind (·.slice? k)

/-- The state with other teams. -/
def State.withTeams (s : State) (ts : List Team) : State := { s with teams := ts }

/-- A byte of a team's shared memory, and of a group's spill stack. -/
def State.sharedByte (s : State) (u a : Nat) : Option Byte := (s.team? u).map (·.shared.get a)
def State.stackByte (s : State) (u n a : Nat) : Option Byte := (s.group? u n).map (·.stack.get a)

/-- A team but for its groups, a group but for its slices. -/
def Team.shell (t : Team) : Team := { t with groups := [] }
def Group.shell (g : Group) : Group := { g with slices := [] }

/-- A team's name, launch and partition, its place and number, whether its clock is stopped, and its shared memory. -/
def Team.seat (t : Team) : (Nat × Nat × Fin 16) × (Fin 8 × Nat × Nat) × Bool × Memory :=
  ((t.uid, t.launch, t.partition), (t.die, t.core, t.lin), t.frozen, t.shared)

/-- Every byte of memory, main memory under whatever key it is read, reads in t as in s. -/
def State.SameBytes (s t : State) : Prop :=
  (∀ key a, t.byteAt key a = s.byteAt key a) ∧ (∀ u a, t.sharedByte u a = s.sharedByte u a) ∧
  ∀ u n a, t.stackByte u n a = s.stackByte u n a

/-- Nothing outside the slices differs: not the package, not the teams, not their groups. -/
def State.SameShells (s t : State) : Prop :=
  t.withTeams s.teams = s ∧ (∀ u, (t.team? u).map Team.shell = (s.team? u).map Team.shell) ∧
  ∀ u n, (t.group? u n).map Group.shell = (s.group? u n).map Group.shell

/-- What an instruction that works in lanes alone leaves of a slice: its scalar registers, its window, its marks and flags, its
region entry, its place in a gang. -/
def Slice.SameScalars (x y : Slice) : Prop :=
  y.num = x.num ∧ y.s = x.s ∧ y.sp = x.sp ∧ y.wb = x.wb ∧ y.lo = x.lo ∧ y.marks = x.marks ∧ y.f = x.f ∧ y.ie = x.ie ∧
  y.gang = x.gang ∧ y.exited = x.exited ∧ y.replay = x.replay

/-- Every slice of the issuing gang, with its group, meets p. -/
def State.gangAll (s : State) (p : Group → Slice → Bool) : Bool :=
  s.teams.all fun t => t.uid != s.cur.team || t.groups.all fun g => g.slices.all fun x => !x.inGang s.cur.gang || p g x

/-! An instruction that runs undisturbed. -/

/-- A slice takes part in the instruction from its start: it has not completed its part before, is not parked, and no debugger
holds it there. -/
def Slice.begins (x : Slice) : Bool := !x.sdone && !x.isParked && !x.isHeld

/-- Every slice of the gang takes part from the start. -/
def State.begins (s : State) : Bool := s.gangAll fun _ x => x.begins

/-- The dependence check passes (R133): no slice of the gang that has still to do its part finds a source marked pending or
a destination marked at all. It is made before the first pass. -/
def State.unmarked (s : State) (rd wr : List Reg) : Bool :=
  !s.cur.first || s.members.all fun m => !m.2.begins ||
    (rd.all (fun r => !m.2.marked (m.2.markReg m.1.budget r) true) &&
     wr.all fun r => !m.2.marked (m.2.markReg m.1.budget r) true && !m.2.marked (m.2.markReg m.1.budget r) false)

/-- Slices that wait so may bring something about when others come (R185, R286, R304), or when work of their group is over
(R248, R267, R363). -/
def Hold.gathers : Hold → Bool
  | .regang | .barrier _ | .vat _ | .order _ | .replay => true
  | _ => false

/-- In team u nothing is about to end: no slice waits for other slices or for older work, but for those that ok excepts, no step
of the debugger is under way, no operation of a group is about to leave, and no phase of a barrier is complete. -/
def State.calmBut (s : State) (u : Nat) (ok : Hold → Bool) : Bool :=
  s.teams.all fun t => t.uid != u ||
    (t.barriers.toList.all (fun b => !b.complete) && t.groups.all fun g =>
      decide ((retireOps g.ops [] []).1.length = g.ops.length) &&
      g.slices.all fun x => (ok x.hold || !x.hold.gathers) && x.dbg != .stepped)

/-- In team u nothing is about to end. -/
def State.calm (s : State) (u : Nat) : Bool := s.calmBut u fun _ => false

/-- Flags that no outstanding operation and no clause in progress holds are clear, in a team (R132). -/
def State.flagsSettled (s : State) (u : Nat) : State := s.updTeam u (·.mapGroups Group.settleFlags)

/-- Every group of the team that stands at a barrier has been counted there. -/
def Team.counted (t : Team) : Bool :=
  t.groups.all fun g => match g.barArgs with
    | some o => t.barriers[o.barrier].arrived.contains g.num
    | none => true

/-- No slice of the gang has deferred lanes (R355). -/
def State.undeferred (s : State) : Bool := s.gangAll fun _ x => x.deferred == 0

/-- The gang is one slice, which takes part from the start. -/
def State.alone (s : State) (g : Group) (x : Slice) : Prop :=
  s.members = [(g, x)] ∧ s.named = true ∧ x.begins = true

/-- Every slice of the gang is of one group. -/
def State.inGroup (s : State) (g : Group) : Prop :=
  s.group? s.cur.team g.num = some g ∧ s.members ≠ [] ∧ (∀ m ∈ s.members, m.1 = g) ∧ s.named = true

/-! Instructions whose slices act in turn, in ascending group and slice order (R177). -/

/-- The numbers of the gang's groups and slices. -/
def State.memberNums (s : State) : List (Nat × Nat) := s.members.map fun m => (m.1.num, m.2.num)

/-- f applied for each of those slices in turn, to what the state then holds of its team, group and slice. -/
def State.inTurn (s : State) (ms : List (Nat × Nat)) (f : State → Team → Group → Slice → State) : State :=
  ms.foldl (fun s1 m => match s1.team? s.cur.team, s1.group? s.cur.team m.1, s1.sliceAt s.cur.team m.1 m.2 with
    | some t, some g, some x => f s1 t g x
    | _, _, _ => s1) s

/-- p holds of each slice of the gang when its turn comes. -/
def State.eachTurn (s : State) (f : State → Team → Group → Slice → State) (p : State → Team → Group → Slice → Prop) : Prop :=
  ∀ ms m rest, s.memberNums = ms ++ m :: rest →
    ∀ t g x, (s.inTurn ms f).team? s.cur.team = some t → (s.inTurn ms f).group? s.cur.team m.1 = some g →
      (s.inTurn ms f).sliceAt s.cur.team m.1 m.2 = some x → p (s.inTurn ms f) t g x

/-- A slice has completed its part. -/
def State.parted (s : State) (t : Team) (g : Group) (x : Slice) : State :=
  s.updSlice t.uid g.num x.num fun y => { y with sdone := true }

/-- The slices of the gang do f in turn, and go past the instruction. -/
def State.allInTurn (s : State) (f : State → Team → Group → Slice → State) : State :=
  (s.inTurn s.memberNums fun s1 t g x => (f s1 t g x).parted t g x).mapGang fun _ x => x.done

/-- p holds of each slice of the gang when it comes to do f. -/
def State.whenInTurn (s : State) (f : State → Team → Group → Slice → State) (p : State → Team → Group → Slice → Prop) : Prop :=
  s.eachTurn (fun s1 t g x => (f s1 t g x).parted t g x) p

/-! Lanes of a pass. A slice's sources are those it had before the instruction's first pass (R127). -/

/-- A slice of the issuing gang as it was before the instruction's first pass. -/
def State.was (s : State) (g : Group) (x : Slice) : Slice := ((s.cur.source g).slice? x.num).getD x

/-- Lane j takes part in the pass: its em bit, its plane, its guard (R126, R145). -/
def State.active (s : State) (gd : Guard) (g : Group) (x : Slice) (j : Fin 4) : Bool :=
  let y := s.was g x
  bit y.em j.val && (y.lane j).pl == s.cur.plane && ((y.lane j).pred gd.pred != gd.neg)

/-- The physical register that window register k is (R229). -/
def State.physOf (s : State) (g : Group) (x : Slice) (k : LReg) : Nat :=
  ((s.was g x).wb + k.val) % (s.cur.source g).budget

/-- The value that lane j's window register k had before the instruction. -/
def State.reg (s : State) (g : Group) (x : Slice) (j : Fin 4) (k : LReg) : Word :=
  ((s.was g x).lane j).get (s.physOf g x k)

/-- No active lane finds poison in a source (R361). -/
def State.cleanLanes (s : State) (gd : Guard) (rd : List Reg) : Bool :=
  s.gangAll fun g x => lanes4.all fun j => !s.active gd g x j || rd.all fun r => match r with
    | .v k => !((s.was g x).lane j).poisoned (s.physOf g x k)
    | .s _ => true

/-- The exceptions of the active lanes of the gang in a group. -/
def State.laneExc (s : State) (gd : Guard) (e : Group → Slice → Fin 4 → Exc) (g : Group) : Exc :=
  ((g.inCur s.cur).flatMap fun x => lanes4.map fun j => if s.active gd g x j then e g x j else 0).foldl (· ||| ·) 0

/-- Every active lane is changed by w, the exceptions e of the active lanes join their group's mode register (R52), every other
lane of the gang stays, and after the last pass each slice goes past the instruction. Nothing else changes. -/
def State.laneTyped (s : State) (gd : Guard) (w : Group → Slice → Fin 4 → Lane → Lane) (e : Group → Slice → Fin 4 → Exc) : State :=
  s.updTeam s.cur.team (·.mapGroups fun g =>
    { g with
      mode := g.mode ||| BitVec.ofNat 32 ((s.laneExc gd e g).toNat * 2 ^ 8)
      slices := g.slices.map fun x =>
        if x.inGang s.cur.gang then (x.mapLanes fun j l => if s.active gd g x j then w g x j l else l).endPass s.cur else x })

/-- The bits of type t that lane j's window register k, or the pair from k, held before the instruction (R191). -/
def State.val (s : State) (g : Group) (x : Slice) (j : Fin 4) (t : ETy) (k : LReg) : Nat :=
  if t.is64 then (s.reg g x j k).toNat + 2 ^ 32 * (s.reg g x j (up k)).toNat else (s.reg g x j k).toNat % 2 ^ t.bits

/-- The registers that receive result bits v of type t in window register d, or in the pair from d (R191): a narrow signed
integer is sign-extended, every other narrow value zero-extended. -/
def State.valRegs (s : State) (g : Group) (x : Slice) (t : ETy) (d : LReg) (v : Nat) : List (Nat × Word) :=
  if t.is64 then [(s.physOf g x d, BitVec.ofNat 32 v), (s.physOf g x (up d), BitVec.ofNat 32 (v / 2 ^ 32))]
  else [(s.physOf g x d, BitVec.ofInt 32 (intOf t v))]

/-- A lane with those registers written. -/
def State.putVal (s : State) (g : Group) (x : Slice) (t : ETy) (d : LReg) (v : Nat) (l : Lane) : Lane :=
  (s.valRegs g x t d v).foldl (fun l w => l.put w.1 w.2 false) l

/-- Every active lane is changed by w, every other lane of the gang stays, and after the last pass each slice goes past the
instruction. Nothing else changes. -/
def State.laneWrites (s : State) (gd : Guard) (w : Group → Slice → Fin 4 → Lane → Lane) : State :=
  s.mapGang fun g x => (x.mapLanes fun j l => if s.active gd g x j then w g x j l else l).endPass s.cur

/-- A pass whose results come later (R193): each slice with an active lane has a new operation that holds the registers ws of its
active lanes, a slice with a lane of the plane has its destinations marked pending under its result flag, the exceptions join the
mode register, and after the last pass each slice goes past the instruction. -/
def State.laneLater (s : State) (gd : Guard) (wr : List Reg) (ws : Group → Slice → Fin 4 → List (Nat × Word))
    (e : Group → Slice → Fin 4 → Exc) : State :=
  s.updTeam s.cur.team (·.mapGroups fun g =>
    let writes := fun (x : Slice) => lanes4.flatMap fun j =>
      if s.active gd g x j then (ws g x j).map fun w => RegWrite.lane x.num j.val w.1 w.2 false else []
    let g1 := (g.slices.filter (·.inGang s.cur.gang)).foldl (fun (h : Group) x =>
      if (writes x).isEmpty then h else h.addOp x (.result (writes x)) none false) g
    { g1 with
      mode := g.mode ||| BitVec.ofNat 32 ((s.laneExc gd e g).toNat * 2 ^ 8)
      slices := g.slices.map fun x =>
        if x.inGang s.cur.gang then
          (if lanes4.any fun j => bit x.em j.val && (x.lane j).pl == s.cur.plane then x.mark g.budget true x.rflag wr
           else x).endPass s.cur
        else x })

/-! Values of other lanes (R217). -/

/-- The value of lane n's window register a, in the window of that lane's slice; 0 in a slice that has exited. -/
def State.laneOf (s : State) (g : Group) (a : LReg) (n : Nat) : Word :=
  match (s.cur.source g).slice? (n / 4) with
  | some y => if y.exited then 0 else (y.lane (Fin.ofNat 4 n)).get ((y.wb + a.val) % (s.cur.source g).budget)
  | none => 0

/-- Every slice of a group of the gang has exited, or belongs to the gang and holds no poison in the registers named. -/
def State.openLanes (s : State) (rs : List LReg) : Bool :=
  s.gangAll fun g _ => (s.cur.source g).slices.all fun y => y.exited || (y.gang == s.cur.gang &&
    rs.all fun a => lanes4.all fun j => !(y.lane j).poisoned ((y.wb + a.val) % (s.cur.source g).budget))

/-- The guard and vb of lane j of a slice in the pass of its own plane: those of the copy that the plane holds, when it is not the
pass's own (R126, R143, R145, R220). -/
def State.passOf (s : State) (gd : Guard) (b : LReg) (y : Slice) (j : Fin 4) : Guard × LReg :=
  match if (y.lane j).pl = s.cur.plane then none else y.wordAt (y.lane j).pl with
  | none => (gd, b)
  | some w => ({ pred := (w.extractLsb' 2 3).toFin, neg := w.getLsbD 1 }, (w.extractLsb' 5 6).toFin)

/-- The lowest-numbered lane of the gang in the group whose em bit is set and whose guard holds in its own pass: its value of that
pass's register vb, and whether that is poison; 0 when there is none (R220). -/
def State.leadOf (s : State) (gd : Guard) (g : Group) (b : LReg) : Word × Bool :=
  let ls := (s.cur.source g).slices.flatMap fun y => lanes4.map fun j => (y, j)
  match ls.find? fun p => p.1.gang == s.cur.gang && !p.1.exited && p.1.em.getLsbD p.2.val &&
      ((p.1.lane p.2).pred (s.passOf gd b p.1 p.2).1.pred != (s.passOf gd b p.1 p.2).1.neg) with
  | some p =>
    let i := (p.1.wb + (s.passOf gd b p.1 p.2).2.val) % (s.cur.source g).budget
    ((p.1.lane p.2).get i, (p.1.lane p.2).poisoned i)
  | none => (0, false)

/-! Memory that an access reaches. -/

/-- The generic address that lane j's pair from window register a holds. -/
def State.addrOf (s : State) (g : Group) (x : Slice) (j : Fin 4) (a : LReg) : DWord := s.reg g x j (up a) ++ s.reg g x j a

/-- The accesses of the slice's active lanes pass the checks of R274 and lead to on-chip memory. -/
def State.lanesReach (s : State) (gd : Guard) (t : Team) (g : Group) (x : Slice) (acc : Access) (a : LReg) (n : Nat) : Bool :=
  lanes4.all fun j => !s.active gd g x j ||
    decide (s.locate t (s.cur.source g) true acc (s.addrOf g x j a) n =
      .place (.chip (spaceOf (s.addrOf g x j a)).1 (spaceOf (s.addrOf g x j a)).2))

/-- The accesses that the active lanes of a slice have to make, each at its own address. -/
def State.lanePartsOf (s : State) (gd : Guard) (g : Group) (x : Slice) (a : LReg) (ty : ETy) (act : Fin 4 → MemAct)
    (dst : Fin 4 → List RegWrite) : List Part :=
  (lanes4.filter (s.active gd g x)).map fun j =>
    { spot := .chip (spaceOf (s.addrOf g x j a)).1 (spaceOf (s.addrOf g x j a)).2, ty := ty, act := act j, dst := dst j }

/-- Where lane j's result of type t for window register d goes. -/
def State.laneDstOf (s : State) (g : Group) (x : Slice) (j : Fin 4) (t : ETy) (d : LReg) : List RegWrite :=
  (s.valRegs g x t d 0).map fun w => .lane x.num j.val w.1 0 false

/-- A slice's lane accesses have issued: they join its group's operations, its destinations are marked pending when a lane of the
plane is there, and after the last pass it goes past the instruction. -/
def State.accessIssued (s : State) (g : Group) (x : Slice) (wr : List Reg) (ord : Order) (parts : List Part) : State :=
  (s.updGroup s.cur.team g.num (·.addAccess x ord parts)).updSlice s.cur.team g.num x.num fun y =>
    (if lanes4.any fun j => bit y.em j.val && (y.lane j).pl == s.cur.plane then y.mark g.budget true y.rflag wr else y).endPass s.cur

/-- A slice's scalar access has issued: it joins its group's operations, and its destinations are marked pending under the
clause's result flag. -/
def State.scalarIssued (s : State) (g : Group) (x : Slice) (wr : List Reg) (ord : Order) (p : Part) : State :=
  (s.updGroup s.cur.team g.num (·.addAccess x ord [p])).updSlice s.cur.team g.num x.num (·.mark g.budget true x.rflag wr)

/-- Where a scalar result of type t for s[d] of slice k goes. -/
def scalarDstOf (k : Nat) (t : ETy) (d : SReg) : List RegWrite :=
  .scalar k d 0 false :: (if t.is64 then [.scalar k (up d) 0 false] else [])

/-- A slice's operation of a path joins its group's operations, with the operations before it that its accesses may have to follow
(R257, R264); one that has returned at once leaves. -/
def State.opIssued (s : State) (g : Group) (x : Slice) (job : Job) (p : Path) (returned : Bool) : State :=
  s.updGroup s.cur.team g.num fun h =>
    let o : Op := { id := h.nextOp, seq := h.issued, after := h.gangMask x.gang, prior := h.priorTo (h.gangMask x.gang), job := job,
                    slice := x.num, offset := x.offset, word := (x.recWords 0).1, ext := (x.recWords 0).2, path := some p,
                    rflag := x.rflag, sflag := x.sflag, lateRead := false, returned := returned, fault := none, parked := none,
                    landing := none, early := [] }
    let k : Group := { h with ops := h.ops ++ [o], nextOp := h.nextOp + 1 }
    if returned then k.retire else k

/-- No operation of the group has its next operation's name. -/
def Group.freshOp (g : Group) : Prop := ∀ p ∈ g.ops, p.id ≠ g.nextOp

/-- A 64-bit scalar pair of a slice. -/
def Slice.pair (x : Slice) (a : SReg) : DWord := x.getS (up a) ++ x.getS a

/-- n bytes from a generic address lie inside the shared or scratchpad aperture of a team. -/
def State.onChipRange (s : State) (t : Team) (a : DWord) (n : Nat) : Bool :=
  (decide ((spaceOf a).1 = .shared) || decide ((spaceOf a).1 = .scratch)) && decide ((spaceOf a).2 + n ≤ s.bound t (spaceOf a).1)

/-- The groups gs of a team are those that vat register v lists; they have all arrived at instruction i, at one offset and with
one copy, and no other slice of the team waits for others or for older work. -/
def Team.vatFull (t : Team) (gs : List Group) (v : BitVec 16) (i : Instr) : Prop :=
  gs = t.groups.filter (fun g => v.getLsbD g.num) ∧ (∀ n, n < 16 → v.getLsbD n = true → ∃ g ∈ gs, g.num = n) ∧
  (∃ c : Word × Word × Word, ∀ g ∈ gs, g.vat = v ∧ g.width = 32 ∧ g.live ≠ [] ∧ ∀ y ∈ g.live,
    y.hold = .vat i ∧ y.copiesDiffer = false ∧ (y.offset, y.recWords (y.ownPlanes.headD 0)) = c) ∧
  ∀ g ∈ t.groups, v.getLsbD g.num = false → ∀ y ∈ g.slices, y.hold.gathers = false

/-! Register writes of an operation. -/

/-- What the writes leave in physical register i of lane j of slice k, when one of them writes it: the last one's value. -/
def lastLane (ws : List RegWrite) (k j i : Nat) : Option Word :=
  ws.foldl (fun r w => match w with
    | .lane a b c v _ => if a = k ∧ b = j ∧ c = i then some v else r
    | .scalar _ _ _ _ => r) none

/-- The same of scalar register i of slice k. -/
def lastScalar (ws : List RegWrite) (k : Nat) (i : SReg) : Option Word :=
  ws.foldl (fun r w => match w with
    | .lane _ _ _ _ _ => r
    | .scalar a c v _ => if a = k ∧ c = i then some v else r) none

/-! Scalar instructions. -/

/-- No slice of the gang finds poison in a scalar source (R361). -/
def State.cleanScalars (s : State) (rd : List Reg) : Bool := s.gangAll fun _ x => !x.scalarPoison rd

/-! Exact values and their rounding (R46, R47, R49). -/

/-- The number that a finite value stands for. -/
def FVal.rat : FVal → Rat
  | .fin neg m e => (if neg then -(m : Rat) else (m : Rat)) * (2 : Rat) ^ e
  | _ => 0

/-- A value is finite. -/
def FVal.isFin : FVal → Bool
  | .fin _ _ _ => true
  | _ => false

/-- v comes before w in the order of the numbers and the infinities; both zeros stand at one place. -/
def FVal.Below (v w : FVal) : Prop :=
  v.isNan = false ∧ w.isNan = false ∧
  ((v = .inf true ∧ w ≠ .inf true) ∨ (w = .inf false ∧ v ≠ .inf false) ∨ (v.isFin = true ∧ w.isFin = true ∧ v.rat < w.rat))

/-- A number z that is given by where it lies: z ≤ q, and q ≤ z, for every rational q. -/
structure Cut where
  le : Rat → Prop
  ge : Rat → Prop

def Cut.of (v : Rat) : Cut := { le := fun q => v ≤ q, ge := fun q => q ≤ v }
/-- The root of v, v not negative, and of 1 / v, v positive. -/
def Cut.root (v : Rat) : Cut := { le := fun q => 0 ≤ q ∧ v ≤ q * q, ge := fun q => q ≤ 0 ∨ q * q ≤ v }
def Cut.rootInv (v : Rat) : Cut := { le := fun q => 0 ≤ q ∧ 1 ≤ q * q * v, ge := fun q => q ≤ 0 ∨ q * q * v ≤ 1 }

/-- Rounding mode rm goes to the nearest value; away from zero, for a result of the given sign (R49). -/
def toNearest (rm : Nat) : Bool := rm == 1 || rm == 5
def fromZero (rm : Nat) (neg : Bool) : Bool := (rm == 4 && !neg) || (rm == 3 && neg)

/-- b, which stands for a magnitude of type t, is what rounding mode rm makes of the positive magnitude z, which does not overflow: the
nearest, with the tie to the even one or to the larger; the least that is not below it; or the greatest that is not above it. -/
def RoundsTo (t : ETy) (rm : Nat) (neg : Bool) (z : Cut) (b : Nat) : Prop :=
  let val := fun (n : Nat) => (unpack t false n).rat
  b ≤ maxBits t false ∧ ∀ c, c ≤ maxBits t false →
    if toNearest rm then
      let mid := (val b + val c) / 2
      let tie := if rm = 1 then b % 2 = 0 else c < b
      (b < c → z.le mid ∧ (z.ge mid → tie)) ∧ (c < b → z.ge mid ∧ (z.le mid → tie))
    else if fromZero rm neg then z.le (val b) ∧ (z.le (val c) → b ≤ c)
    else z.ge (val b) ∧ (z.ge (val c) → c ≤ b)

/-- The magnitude z, rounded with an unbounded exponent, exceeds the largest finite value (R46). -/
def Overflows (t : ETy) (rm : Nat) (neg : Bool) (z : Cut) : Prop :=
  let top := maxBits t false
  let max := (unpack t false top).rat
  let ulp := max - (unpack t false (top - 1)).rat
  if toNearest rm then z.ge (max + ulp / 2) ∧ (rm = 5 ∨ top % 2 = 1 ∨ ¬ z.le (max + ulp / 2))
  else if fromZero rm neg then ¬ z.le max
  else z.ge (max + ulp)

/-- The magnitude z, rounded with an unbounded exponent, is smaller than the smallest normal value (R47). -/
def Tiny (t : ETy) (rm : Nat) (neg : Bool) (z : Cut) : Prop :=
  let least := (unpack t false (2 ^ (fmtOf t).mb)).rat
  let ulp := (unpack t false 1).rat
  if toNearest rm then ¬ z.ge (least - ulp / 4) else if fromZero rm neg then z.le (least - ulp / 2) else ¬ z.ge least

/-- Result bits r and exceptions x are what R46, R47 and R49 make of the exact result whose sign is neg and whose positive magnitude
is z, in type t. -/
def Rounded (t : ETy) (rm : Nat) (sat ftz neg : Bool) (z : Cut) (r : Nat × Exc) : Prop :=
  let sign := signBit t neg
  (Overflows t rm neg z → r = (if sat = false ∧ (toNearest rm || fromZero rm neg) = true then infBits t neg
    else sign + maxBits t false, 0x14#5)) ∧
  (¬ Overflows t rm neg z → ∃ b, RoundsTo t rm neg z b ∧
    let exact := z.le (unpack t false b).rat ∧ z.ge (unpack t false b).rat
    if ftz = true ∧ b < 2 ^ (fmtOf t).mb then r = (sign, 0x18#5)
    else r.1 = sign + b ∧ (r.2.getLsbD 4 = true ↔ ¬ exact) ∧ (r.2.getLsbD 3 = true ↔ ¬ exact ∧ ftz = false ∧ Tiny t rm neg z) ∧
      r.2 &&& 7#5 = 0)

/-- The exact result v of a float operation of type t, rounded once; a zero has the sign given (R196). -/
def Computes (t : ETy) (rm : Nat) (sat ftz : Bool) (v : Rat) (zero : Bool) (r : Nat × Exc) : Prop :=
  (v = 0 → r = (signBit t zero, 0)) ∧ (v ≠ 0 → Rounded t rm sat ftz (decide (v < 0)) (Cut.of (if v < 0 then -v else v)) r)

/-- Integer i is what rounding mode rm makes of v (R49). -/
def RoundsToInt (rm : Nat) (v : Rat) (i : Int) : Prop :=
  let d := v - i
  match rm with
  | 1 => -1 ≤ 2 * d ∧ 2 * d ≤ 1 ∧ (2 * d = 1 ∨ 2 * d = -1 → i % 2 = 0)
  | 5 => -1 ≤ 2 * d ∧ 2 * d ≤ 1 ∧ (2 * d = 1 → v < 0) ∧ (2 * d = -1 → 0 < v)
  | 3 => 0 ≤ d ∧ d < 1
  | 4 => -1 < d ∧ d ≤ 0
  | _ => if 0 ≤ v then 0 ≤ d ∧ d < 1 else -1 < d ∧ d ≤ 0

end Sys2Proof.Machine
end

