-- ==== Sys2Proof/Certificates/Slice0/Obligations.lean ====
section
/-! DEFINITION. What the provers are asked to prove of the model. -/

open Sys2Proof Sys2Proof.Machine

/-- R199, R200, R222: each active lane gets the result of its two registers, and no other thing changes. R151, R199, R200:
the same with the immediate in place of the second register. -/
def Obligations.LaneBinary : Prop :=
  (∀ (s : State) (o : LaneR), s.unmarked [.v o.a, .v o.b] [.v o.d] = true → s.cleanLanes o.g [.v o.a, .v o.b] = true →
     ∀ p ∈ ([(.addI32, fun a b => BitVec.ofNat 32 (a.toNat + b.toNat)),
             (.subI32, fun a b => BitVec.ofInt 32 (a.toInt - b.toInt)),
             (.mulI32, fun a b => BitVec.ofInt 32 (a.toInt * b.toInt)),
             (.mulhiI32, fun a b => (a.signExtend 64 * b.signExtend 64).extractLsb' 32 32),
             (.mulhiN32, fun a b => (a.zeroExtend 64 * b.zeroExtend 64).extractLsb' 32 32),
             (.minI32, fun a b => if a.toInt < b.toInt then a else b),
             (.maxI32, fun a b => if a.toInt < b.toInt then b else a),
             (.minN32, fun a b => if a.toNat < b.toNat then a else b),
             (.maxN32, fun a b => if a.toNat < b.toNat then b else a),
             (.and, fun a b => a &&& b), (.or, fun a b => a ||| b), (.xor, fun a b => a ^^^ b), (.andn, fun a b => a &&& ~~~b),
             (.shl, fun a b => BitVec.ofNat 32 (a.toNat * 2 ^ b.toNat)),
             (.shrN32, fun a b => BitVec.ofNat 32 (a.toNat / 2 ^ b.toNat)),
             (.shrI32, fun a b => BitVec.ofInt 32 (a.toInt / (2 ^ b.toNat : Nat))),
             (.rol, fun a b => a.rotateLeft (b.toNat % 32)),
             (.pack, fun a b => b.extractLsb' 0 16 ++ a.extractLsb' 0 16)] :
         List ((LaneR → Instr) × (Word → Word → Word))),
       exec (p.1 o) s =
         .next (s.laneWrites o.g fun g x j l => l.put (s.physOf g x o.d) (p.2 (s.reg g x j o.a) (s.reg g x j o.b)) false)) ∧
  ∀ (s : State) (o : LaneI), s.unmarked [.v o.a] [.v o.d] = true → s.cleanLanes o.g [.v o.a] = true →
    ∀ p ∈ ([(.addI32Imm, fun a b => BitVec.ofNat 32 (a.toNat + b.toNat)),
            (.subI32Imm, fun a b => BitVec.ofInt 32 (a.toInt - b.toInt)),
            (.mulI32Imm, fun a b => BitVec.ofInt 32 (a.toInt * b.toInt)),
            (.mulhiI32Imm, fun a b => (a.signExtend 64 * b.signExtend 64).extractLsb' 32 32),
            (.mulhiN32Imm, fun a b => (a.zeroExtend 64 * b.zeroExtend 64).extractLsb' 32 32),
            (.minI32Imm, fun a b => if a.toInt < b.toInt then a else b),
            (.maxI32Imm, fun a b => if a.toInt < b.toInt then b else a),
            (.minN32Imm, fun a b => if a.toNat < b.toNat then a else b),
            (.maxN32Imm, fun a b => if a.toNat < b.toNat then b else a),
            (.andImm, fun a b => a &&& b), (.orImm, fun a b => a ||| b), (.xorImm, fun a b => a ^^^ b),
            (.andnImm, fun a b => a &&& ~~~b),
            (.shlImm, fun a b => BitVec.ofNat 32 (a.toNat * 2 ^ b.toNat)),
            (.shrN32Imm, fun a b => BitVec.ofNat 32 (a.toNat / 2 ^ b.toNat)),
            (.shrI32Imm, fun a b => BitVec.ofInt 32 (a.toInt / (2 ^ b.toNat : Nat))),
            (.rolImm, fun a b => a.rotateLeft (b.toNat % 32))] :
        List ((LaneI → Instr) × (Word → Word → Word))),
      exec (p.1 o) s = .next (s.laneWrites o.g fun g x j l => l.put (s.physOf g x o.d) (p.2 (s.reg g x j o.a) o.imm) false)

/-- R200, R201: each active lane gets the result of its one register. R201, R203, R204: MOV of an immediate, PTOI and LID
need no lane register. -/
def Obligations.LaneUnary : Prop :=
  (∀ (s : State) (o : LaneU), s.unmarked [.v o.a] [.v o.d] = true → s.cleanLanes o.g [.v o.a] = true →
     ∀ p ∈ ([(.popc, fun a => BitVec.ofNat 32 ((List.range 32).filter fun i => a.getLsbD i).length),
             (.clz, fun a => BitVec.ofNat 32 ((List.range 32).takeWhile fun i => !a.getLsbD (31 - i)).length),
             (.brev, fun a => a.reverse),
             (.mov, fun a => a),
             (.absI32, fun a => BitVec.ofNat 32 a.toInt.natAbs),
             (.negI32, fun a => BitVec.ofInt 32 (-a.toInt))] : List ((LaneU → Instr) × (Word → Word))),
       exec (p.1 o) s = .next (s.laneWrites o.g fun g x j l => l.put (s.physOf g x o.d) (p.2 (s.reg g x j o.a)) false)) ∧
  ∀ (s : State) (gd : Guard) (d : LReg), s.unmarked [] [.v d] = true →
    let puts := fun (v : Group → Slice → Fin 4 → Word) =>
      Host.Outcome.next (s.laneWrites gd fun g x j l => l.put (s.physOf g x d) (v g x j) false)
    (∀ imm, exec (.movImm { g := gd, d := d, imm := imm }) s = puts fun _ _ _ => imm) ∧
    (∀ pa, exec (.ptoi { g := gd, d := d, pa := pa }) s =
      puts fun g x j => if pa = 7 ∨ ((s.was g x).lane j).p.getLsbD pa.val = true then 1 else 0) ∧
    (exec (.lid { g := gd, d := d, sel := .lane }) s = puts fun g x j => BitVec.ofNat 32 (4 * (s.was g x).num + j.val)) ∧
    (exec (.lid { g := gd, d := d, sel := .plane }) s = puts fun g x j => BitVec.ofNat 32 ((s.was g x).lane j).pl.val) ∧
    (exec (.lid { g := gd, d := d, sel := .position }) s = puts fun _ _ j => BitVec.ofNat 32 j.val)

/-- R202: each active lane sets its predicate to the relation of its registers, or of a register and the immediate. R143,
R203: the predicate instructions, which meet no mark and no poison; p7 reads 1. -/
def Obligations.LaneTests : Prop :=
  (∀ (s : State) (gd : Guard) (pd : PReg) (a b : LReg) (imm : Word),
     ∀ p ∈ ([(.seteqI32, .seteqI32Imm, fun x y => decide (x = y)), (.setneI32, .setneI32Imm, fun x y => decide (x ≠ y)),
             (.setltI32, .setltI32Imm, fun x y => decide (x.toInt < y.toInt)),
             (.setleI32, .setleI32Imm, fun x y => decide (x.toInt ≤ y.toInt)),
             (.setgtI32, .setgtI32Imm, fun x y => decide (x.toInt > y.toInt)),
             (.setltN32, .setltN32Imm, fun x y => decide (x.toNat < y.toNat)),
             (.setleN32, .setleN32Imm, fun x y => decide (x.toNat ≤ y.toNat)),
             (.setgtN32, .setgtN32Imm, fun x y => decide (x.toNat > y.toNat))] :
         List ((CmpR → Instr) × (CmpI → Instr) × (Word → Word → Bool))),
       (s.unmarked [.v a, .v b] [] = true → s.cleanLanes gd [.v a, .v b] = true →
         exec (p.1 { g := gd, pd := pd, a := a, b := b }) s =
           .next (s.laneWrites gd fun g x j l => l.setPred pd (p.2.2 (s.reg g x j a) (s.reg g x j b)))) ∧
       (s.unmarked [.v a] [] = true → s.cleanLanes gd [.v a] = true →
         exec (p.2.1 { g := gd, pd := pd, a := a, imm := imm }) s =
           .next (s.laneWrites gd fun g x j l => l.setPred pd (p.2.2 (s.reg g x j a) imm)))) ∧
  ∀ (s : State) (gd : Guard) (pd pa pb : PReg),
    let val := fun (g : Group) (x : Slice) (j : Fin 4) (k : PReg) =>
      if k = 7 then true else ((s.was g x).lane j).p.getLsbD k.val
    let sets := fun (v : Group → Slice → Fin 4 → Bool) =>
      Host.Outcome.next (s.laneWrites gd fun g x j l => l.setPred pd (v g x j))
    exec (.pmov { g := gd, pd := pd, pa := pa }) s = sets (fun g x j => val g x j pa) ∧
    exec (.pnot { g := gd, pd := pd, pa := pa }) s = sets (fun g x j => !val g x j pa) ∧
    exec (.pand { g := gd, pd := pd, pa := pa, pb := pb }) s = sets (fun g x j => val g x j pa && val g x j pb) ∧
    exec (.por { g := gd, pd := pd, pa := pa, pb := pb }) s = sets (fun g x j => val g x j pa || val g x j pb) ∧
    exec (.pxor { g := gd, pd := pd, pa := pa, pb := pb }) s = sets (fun g x j => xor (val g x j pa) (val g x j pb))

/-- R191, R205 to R213: each active lane of a typed instruction gets the operation's result bits, in one register or a pair,
and the group's mode register gathers the exceptions of the active lanes. R163, R207, R216: SETcc sets a predicate, and
gathers exceptions; DP4 adds four products to the third source on a Jenben 6 die, and on a Jenben 5 die traps with class
0x03. -/
def Obligations.TypedResults : Prop :=
  (∀ (s : State) (gd : Guard) (t u : ETy) (rm : Rnd) (sat : Bool) (d a b c : LReg),
     let mode := fun g => (s.cur.source g).mode
     let puts := fun (t : ETy) (r : Group → Slice → Fin 4 → Nat × Exc) =>
       Host.Outcome.next (s.laneTyped gd (fun g x j l => s.putVal g x t d (r g x j).1 l) fun g x j => (r g x j).2)
     (s.unmarked (vRegs t a ++ vRegs t b) (vRegs t d) = true → s.cleanLanes gd (vRegs t a ++ vRegs t b) = true →
       exec (.addTyped ⟨gd, t, rm, sat, d, a, b⟩) s =
         puts t (fun g x j => arith .add t rm sat (mode g) (s.val g x j t a) (s.val g x j t b)) ∧
       exec (.subTyped ⟨gd, t, rm, sat, d, a, b⟩) s =
         puts t (fun g x j => arith .sub t rm sat (mode g) (s.val g x j t a) (s.val g x j t b)) ∧
       exec (.mulTyped ⟨gd, t, rm, sat, d, a, b⟩) s =
         puts t (fun g x j => arith .mul t rm sat (mode g) (s.val g x j t a) (s.val g x j t b)) ∧
       exec (.minTyped ⟨gd, t, d, a, b⟩) s = puts t (fun g x j => minMax true t (mode g) (s.val g x j t a) (s.val g x j t b)) ∧
       exec (.maxTyped ⟨gd, t, d, a, b⟩) s = puts t (fun g x j => minMax false t (mode g) (s.val g x j t a) (s.val g x j t b))) ∧
     (s.unmarked (vRegs t a ++ vRegs t b ++ vRegs t c) (vRegs t d) = true →
       s.cleanLanes gd (vRegs t a ++ vRegs t b ++ vRegs t c) = true →
       exec (.mad ⟨gd, t, rm, sat, d, a, b, c⟩) s =
         puts t (fun g x j => madOp t rm sat (mode g) (s.val g x j t a) (s.val g x j t b) (s.val g x j t c))) ∧
     (s.unmarked (vRegs t a ++ [.v b]) (vRegs t d) = true → s.cleanLanes gd (vRegs t a ++ [.v b]) = true →
       exec (.shlTyped ⟨gd, t, d, a, b⟩) s = puts t (fun g x j => (shiftOp true t (s.val g x j t a) (s.reg g x j b).toNat, 0)) ∧
       exec (.shrTyped ⟨gd, t, d, a, b⟩) s = puts t (fun g x j => (shiftOp false t (s.val g x j t a) (s.reg g x j b).toNat, 0))) ∧
     (s.unmarked (vRegs t a) (vRegs t d) = true → s.cleanLanes gd (vRegs t a) = true →
       exec (.negTyped ⟨gd, t, sat, d, a⟩) s = puts t (fun g x j => negOp t sat (mode g) (s.val g x j t a)) ∧
       exec (.absTyped ⟨gd, t, sat, d, a⟩) s = puts t (fun g x j => absOp t sat (mode g) (s.val g x j t a)) ∧
       exec (.rndi ⟨gd, t, rm, d, a⟩) s = puts t (fun g x j => rndiOp t rm (mode g) (s.val g x j t a))) ∧
     (s.unmarked (vRegs t a) [.v d] = true → s.cleanLanes gd (vRegs t a) = true →
       exec (.fclass ⟨gd, t, d, a⟩) s = puts .n32 (fun g x j => (fclassOp t (s.val g x j t a), 0))) ∧
     (s.unmarked (vRegs u a) (vRegs t d) = true → s.cleanLanes gd (vRegs u a) = true →
       exec (.cvt ⟨gd, t, u, rm, sat, d, a⟩) s = puts t (fun g x j => cvtOp t u rm sat (mode g) (s.val g x j u a)))) ∧
  ∀ (s : State) (gd : Guard) (t : ETy) (cc : SetCond) (pd : PReg) (sat : Bool) (d a b c : LReg),
    (s.unmarked (vRegs t a ++ vRegs t b) [] = true → s.cleanLanes gd (vRegs t a ++ vRegs t b) = true →
      exec (.setcc ⟨gd, t, cc, pd, a, b⟩) s =
        .next (s.laneTyped gd
          (fun g x j l => l.setPred pd (setCond cc t (s.cur.source g).mode (s.val g x j t a) (s.val g x j t b)).1)
          fun g x j => (setCond cc t (s.cur.source g).mode (s.val g x j t a) (s.val g x j t b)).2)) ∧
    (∀ team, s.team? s.cur.team = some team → ∀ u ∈ [ETy.i8, ETy.n8],
      (4 ≤ team.die.val → exec (.dp4 ⟨gd, u, sat, d, a, b, c⟩) s =
        .next (s.raiseGang s.cur.plane { cls := .unimplementedGeneration })) ∧
      (team.die.val < 4 → s.unmarked [.v a, .v b, .v c] [.v d] = true → s.cleanLanes gd [.v a, .v b, .v c] = true →
        exec (.dp4 ⟨gd, u, sat, d, a, b, c⟩) s =
          .next (s.laneWrites gd fun g x j l =>
            let byte := fun (w : Word) (i : Nat) =>
              if u = .i8 then (w.extractLsb' (8 * i) 8).toInt else ((w.extractLsb' (8 * i) 8).toNat : Int)
            let w := s.reg g x j a
            let v := s.reg g x j b
            let sum := byte w 0 * byte v 0 + byte w 1 * byte v 1 + byte w 2 * byte v 2 + byte w 3 * byte v 3 + (s.reg g x j c).toInt
            l.put (s.physOf g x d)
              (BitVec.ofInt 32 (if sat || (s.cur.source g).mode.getLsbD 3 then max (-2147483648) (min 2147483647 sum) else sum))
              false)))

/-- R46, R47, R49, R196, R205, R210, R211, R214, R293: the exact result of finite operands, rounded once: sums, differences,
products, fused products, quotients, roots, reciprocals, conversions from floats and integers to floats, and the elements of
an expansion. An exact zero is written with the sign that IEEE 754 gives it. -/
def Obligations.RoundedResults : Prop :=
  ∀ (t u : ETy) (rm : Rnd) (sat : Bool) (mode : Word) (a b c : Nat), t.isFloat = true →
    let r := effRm rm mode
    let st := sat || modeSat mode
    let fl := flushes t mode
    let x := unpack t fl a
    let y := unpack t fl b
    let z := unpack t fl c
    1 ≤ r → r ≤ 5 → x.isFin = true → y.isFin = true →
    let zero := fun (p q : FVal → Bool) (v w : FVal) => if v.isZero && w.isZero && p v == q w then p v else r == 3
    Computes t r st fl (x.rat + y.rat) (zero (·.neg) (·.neg) x y) (arith .add t rm sat mode a b) ∧
    Computes t r st fl (x.rat - y.rat) (zero (·.neg) (fun w => !w.neg) x y) (arith .sub t rm sat mode a b) ∧
    Computes t r st fl (x.rat * y.rat) (x.neg != y.neg) (arith .mul t rm sat mode a b) ∧
    (z.isFin = true → Computes t r st fl (x.rat * y.rat + z.rat)
      (if decide (x.rat * y.rat = 0) && z.isZero && (x.neg != y.neg) == z.neg then z.neg else r == 3) (madOp t rm sat mode a b c)) ∧
    (y.rat ≠ 0 → Computes t r st fl (x.rat / y.rat) (x.neg != y.neg) (divOp t rm sat mode a b)) ∧
    (x.isZero = true → sqrtOp t rm sat mode a = (signBit t x.neg, 0)) ∧
    (0 < x.rat → Rounded t r st fl false (Cut.root x.rat) (sqrtOp t rm sat mode a)) ∧
    (t.isSpecial = true → (x.rat ≠ 0 → Computes t 1 (modeSat mode) fl (1 / x.rat) false (specialOp rcpVal t mode a)) ∧
      (0 < x.rat → Rounded t 1 (modeSat mode) fl false (Cut.rootInv x.rat) (specialOp rsqVal t mode a))) ∧
    (isFloaty u = true → Computes u r st (flushes u mode) x.rat x.neg (cvtOp u t rm sat mode a)) ∧
    (u.isInt = true → Computes t r st fl (intOf u a) false (cvtOp t u rm sat mode a)) ∧
    (∀ (code scale : Nat) (k : Int), code < 16 → q4Scale scale = some k → ∃ e,
      Computes t r st fl ((elemVal .q4 scale code).rat * (2 : Rat) ^ k) false (xpandElem t r st fl (code, scale), e))

/-- R43, R195: integer typed arithmetic raises nothing; its result is the exact one, clamped to the type's range when it
saturates and else wrapped into it. R44, R45: a float operation on a NaN gives the type's canonical NaN, and FI exactly when
an operand signals; the sum of opposite infinities and the product of an infinity and a zero give it with FI. R45, R47, R206,
R207: MIN, MAX and the conditions of SETcc compare the operands as they are read: −0 comes before +0 in MIN and MAX and
equals it in SETcc; a NaN is passed over, or fails every condition but NE and UN; and FI is raised for a signalling NaN
alone. R43, R46, R195, R208, R209, R211 to R213: conversions to integers, of infinities and of NaNs; RNDI; FCLASS; NEG, ABS
and the shifts. R214, R215: the special operands of the special functions, and operands at which their values are exact. -/
def Obligations.ArithmeticResults : Prop :=
  (∀ (t : ETy) (rm : Rnd) (sat : Bool) (mode : Word) (a b : Nat), t.isInt = true →
     let lo : Int := if t.isSigned then -(2 : Int) ^ (t.bits - 1) else 0
     let hi : Int := if t.isSigned then (2 : Int) ^ (t.bits - 1) - 1 else (2 : Int) ^ t.bits - 1
     ∀ p ∈ [(Arith.add, intOf t a + intOf t b), (.sub, intOf t a - intOf t b), (.mul, intOf t a * intOf t b)],
       (arith p.1 t rm sat mode a b).2 = 0 ∧
       lo ≤ intOf t (arith p.1 t rm sat mode a b).1 ∧ intOf t (arith p.1 t rm sat mode a b).1 ≤ hi ∧
       (if sat || mode.getLsbD 3 then intOf t (arith p.1 t rm sat mode a b).1 = max lo (min hi p.2)
         else (intOf t (arith p.1 t rm sat mode a b).1 - p.2) % (2 : Int) ^ t.bits = 0)) ∧
  (∀ (t : ETy) (rm : Rnd) (sat : Bool) (mode : Word) (a b : Nat), t.isFloat = true →
     let x := unpack t (flushes t mode) a
     let y := unpack t (flushes t mode) b
     let canon : Nat := if t = .f64 then 0x7FF8000000000000 else if t = .f32 then 0x7FC00000 else if t = .f16 then 0x7E00 else 0x7FC0
     (x.isNan = true ∨ y.isNan = true → ∀ op : Arith,
       arith op t rm sat mode a b = (canon, if x.isSnan || y.isSnan then 1 else 0)) ∧
     (x = .inf false → y = .inf true → arith .add t rm sat mode a b = (canon, 1) ∧ arith .sub t rm sat mode a a = (canon, 1)) ∧
     (x.isInf = true → y.isZero = true → arith .mul t rm sat mode a b = (canon, 1) ∧ arith .mul t rm sat mode b a = (canon, 1))) ∧
  (∀ (t : ETy) (mode : Word) (a b : Nat),
     (t.isFloat = true →
       let x := unpack t (flushes t mode) a
       let y := unpack t (flushes t mode) b
       let e : Exc := if x.isSnan || y.isSnan then 1 else 0
       let read := fun (v : FVal) (n : Nat) => if v.isZero then signBit t v.neg else n
       let first := fun (v w : FVal) => v.Below w ∨ (¬ w.Below v ∧ v.neg = true ∧ w.neg = false)
       (∀ isMin : Bool, (x.isNan = true → y.isNan = true → minMax isMin t mode a b = (canonNan t, e)) ∧
         (x.isNan = true → y.isNan = false → minMax isMin t mode a b = (read y b, e)) ∧
         (x.isNan = false → y.isNan = true → minMax isMin t mode a b = (read x a, e))) ∧
       (x.isNan = false → y.isNan = false →
         (first y x → minMax true t mode a b = (read y b, e) ∧ minMax false t mode a b = (read x a, e)) ∧
         (¬ first y x → minMax true t mode a b = (read x a, e) ∧ minMax false t mode a b = (read y b, e))) ∧
       (∀ cc, (setCond cc t mode a b).2 = e) ∧
       let ordered := x.isNan = false ∧ y.isNan = false
       let same := ordered ∧ ¬ x.Below y ∧ ¬ y.Below x
       ((setCond .eq t mode a b).1 = true ↔ same) ∧ ((setCond .ne t mode a b).1 = true ↔ ¬ same) ∧
       ((setCond .lt t mode a b).1 = true ↔ x.Below y) ∧ ((setCond .le t mode a b).1 = true ↔ ordered ∧ ¬ y.Below x) ∧
       ((setCond .gt t mode a b).1 = true ↔ y.Below x) ∧ ((setCond .ge t mode a b).1 = true ↔ ordered ∧ ¬ x.Below y) ∧
       ((setCond .un t mode a b).1 = true ↔ ¬ ordered)) ∧
     (t.isInt = true →
       let x := intOf t a
       let y := intOf t b
       (minMax true t mode a b).2 = 0 ∧ (minMax false t mode a b).2 = 0 ∧
       intOf t (minMax true t mode a b).1 = min x y ∧ intOf t (minMax false t mode a b).1 = max x y ∧
       setCond .eq t mode a b = (decide (x = y), 0) ∧ setCond .ne t mode a b = (decide (x ≠ y), 0) ∧
       setCond .lt t mode a b = (decide (x < y), 0) ∧ setCond .le t mode a b = (decide (x ≤ y), 0) ∧
       setCond .gt t mode a b = (decide (y < x), 0) ∧ setCond .ge t mode a b = (decide (y ≤ x), 0))) ∧
  (∀ (t u : ETy) (rm : Rnd) (sat : Bool) (mode : Word) (a n : Nat),
     let r := effRm rm mode
     let st := sat || modeSat mode
     let lo := fun (t : ETy) => if t.isSigned then -(2 : Int) ^ (t.bits - 1) else 0
     let hi := fun (t : ETy) => if t.isSigned then (2 : Int) ^ (t.bits - 1) - 1 else (2 : Int) ^ t.bits - 1
     let keeps := fun (t : ETy) (v : Int) (p : Nat × Exc) => p.2 = 0 ∧ p.1 < 2 ^ t.bits ∧
       if st then intOf t p.1 = max (lo t) (min (hi t) v) else (intOf t p.1 - v) % (2 : Int) ^ t.bits = 0
     1 ≤ r → r ≤ 5 →
     (isFloaty u = true →
       let x := unpack u (flushes u mode) a
       let e : Exc := if x.isSnan then 1 else 0
       let p := cvtOp t u rm sat mode a
       (isFloaty t = true → (x.isNan = true → p = (canonNan t, e)) ∧
         ∀ neg, x = .inf neg → p = if st then (maxBits t neg, 0x14#5) else if t = .e4m3 then (0x7F, 1) else (infBits t neg, 0)) ∧
       (t.isInt = true → (x.isNan = true → p = (0, 1)) ∧
         (∀ neg, x = .inf neg → p.2 = 1 ∧ intOf t p.1 = if neg then lo t else hi t) ∧
         (x.isFin = true → ∃ i : Int, RoundsToInt r x.rat i ∧ intOf t p.1 = max (lo t) (min (hi t) i) ∧
           p.2 = if i < lo t ∨ hi t < i then 1#5 else if (i : Rat) = x.rat then 0#5 else 0x10#5)) ∧
       (u.isFloat = true →
         let q := rndiOp u rm mode a
         (x.isNan = true → q = (canonNan u, e)) ∧ (∀ neg, x = .inf neg → q = (infBits u neg, 0)) ∧
         (x.isFin = true → ∃ i : Int, RoundsToInt r x.rat i ∧ q.2 = 0 ∧ (unpack u false q.1).isFin = true ∧
           (unpack u false q.1).rat = i ∧ (unpack u false q.1).neg = x.neg) ∧
         (x.isNan = true → negOp u sat mode a = (canonNan u, e) ∧ absOp u sat mode a = (canonNan u, e)) ∧
         (x.isNan = false → (negOp u sat mode a).2 = 0 ∧ (absOp u sat mode a).2 = 0 ∧
           unpack u false (negOp u sat mode a).1 = negVal x ∧
           unpack u false (absOp u sat mode a).1 = if x.neg then negVal x else x) ∧
         let v := unpack u false a
         let small := a % 2 ^ (u.bits - 1) < 2 ^ (fmtOf u).mb
         fclassOp u a = 2 ^ (if v.isSnan then 8 else if v.isNan then 9 else if v = .inf true then 0 else if v = .inf false then 7
           else if v.isZero then (if v.neg then 3 else 4) else if small then (if v.neg then 2 else 5) else if v.neg then 1 else 6))) ∧
     (t.isInt = true → (u.isInt = true → keeps t (intOf u a) (cvtOp t u rm sat mode a)) ∧
       (t.isSigned = true → keeps t (-(intOf t a)) (negOp t sat mode a) ∧ keeps t ((intOf t a).natAbs : Int) (absOp t sat mode a)) ∧
       shiftOp true t a n = (if n < t.bits then a * 2 ^ n % 2 ^ t.bits else 0) ∧
       intOf t (shiftOp false t a n) = if n < t.bits then intOf t a / (2 : Int) ^ n else if intOf t a < 0 then -1 else 0)) ∧
  ∀ (t : ETy) (mode : Word) (a : Nat), t.isSpecial = true →
    let x := unpack t (flushes t mode) a
    let f := fun (g : FVal → FVal × Exc) => specialOp g t mode a
    let nan := fun (e : Exc) => (canonNan t, e)
    let one := (fmtOf t).bias * 2 ^ (fmtOf t).mb
    let sign := signBit t true
    (x.isNan = true → ∀ g ∈ [sinVal, cosVal, rcpVal, rsqVal, exp2Val, log2Val], f g = nan (if x.isSnan then 1 else 0)) ∧
    (x.isZero = true → f sinVal = (signBit t x.neg, 0) ∧ f cosVal = (one, 0) ∧ f rcpVal = (infBits t x.neg, 2) ∧
      f rsqVal = (infBits t x.neg, 2) ∧ f exp2Val = (one, 0) ∧ f log2Val = (infBits t true, 2)) ∧
    (x = .inf false → f sinVal = nan 1 ∧ f cosVal = nan 1 ∧ f rcpVal = (0, 0) ∧ f rsqVal = (0, 0) ∧
      f exp2Val = (infBits t false, 0) ∧ f log2Val = (infBits t false, 0)) ∧
    (x = .inf true → f sinVal = nan 1 ∧ f cosVal = nan 1 ∧ f rcpVal = (sign, 0) ∧ f rsqVal = nan 1 ∧
      f exp2Val = (0, 0) ∧ f log2Val = nan 1) ∧
    (x.isFin = true → x.rat < 0 → f rsqVal = nan 1 ∧ f log2Val = nan 1) ∧
    (x.isFin = true → ∀ n : Int,
      (2 * x.rat = n → f sinVal = (signBit t x.neg, 0)) ∧
      (4 * x.rat = 4 * n + 1 → f sinVal = (one, 0)) ∧ (4 * x.rat = 4 * n + 3 → f sinVal = (sign + one, 0)) ∧
      (4 * x.rat = 2 * n + 1 → f cosVal = (0, 0)) ∧
      (x.rat = n → f cosVal = (one, 0)) ∧ (2 * x.rat = 2 * n + 1 → f cosVal = (sign + one, 0)) ∧
      (x.rat = n → Computes t 1 (modeSat mode) (flushes t mode) ((2 : Rat) ^ n) false (f exp2Val)) ∧
      (x.rat = (2 : Rat) ^ n → Computes t 1 (modeSat mode) (flushes t mode) n false (f log2Val)))

/-- R193, R210, R214, R215: DIV, SQRT and the special functions issue: their results wait in an operation, and their
destinations are marked pending. R193: when a variable-latency result returns, its registers hold what it wrote, the last
write to a register standing; every other register stays, those of a slice that has exited too, and the operation is gone. -/
def Obligations.VariableLatency : Prop :=
  (∀ (s : State) (gd : Guard) (t : ETy) (rm : Rnd) (sat : Bool) (d a b : LReg),
     let mode := fun g => (s.cur.source g).mode
     let later := fun (r : Group → Slice → Fin 4 → Nat × Exc) =>
       Host.Outcome.next (s.laneLater gd (vRegs t d) (fun g x j => s.valRegs g x t d (r g x j).1) fun g x j => (r g x j).2)
     (s.unmarked (vRegs t a ++ vRegs t b) (vRegs t d) = true → s.cleanLanes gd (vRegs t a ++ vRegs t b) = true →
       exec (.div ⟨gd, t, rm, sat, d, a, b⟩) s =
         later (fun g x j => divOp t rm sat (mode g) (s.val g x j t a) (s.val g x j t b))) ∧
     (s.unmarked (vRegs t a) (vRegs t d) = true → s.cleanLanes gd (vRegs t a) = true →
       exec (.sqrt ⟨gd, t, rm, sat, d, a⟩) s = later (fun g x j => sqrtOp t rm sat (mode g) (s.val g x j t a)) ∧
       ∀ p ∈ ([(.sin, sinVal), (.cos, cosVal), (.rcp, rcpVal), (.rsq, rsqVal), (.exp2, exp2Val), (.log2, log2Val)] :
           List ((TypedU → Instr) × (FVal → FVal × Exc))),
         exec (p.1 ⟨gd, t, d, a⟩) s = later (fun g x j => specialOp p.2 t (mode g) (s.val g x j t a)))) ∧
  ∀ (s : State) (o : OpRef) (t : Team) (g : Group) (p : Op) (ws : List RegWrite), s.named = true → s.calm o.team = true →
    s.team? o.team = some t → t.frozen = false → t.group? o.group = some g → g.op? o.op = some p → p.returned = false →
    p.lateRead = false → p.path = none → p.landing = none → (∀ q ∈ g.ops, q.id = o.op → q = p) →
    (∀ x ∈ g.slices, ∀ q th, x.hold ≠ .path q th ∧ x.hold ≠ .pathFull q) → p.job = .result ws →
      ∃ s1 h, exec (.variableLatencyResult o) s = .next s1 ∧ s1.group? o.team o.group = some h ∧ h.op? o.op = none ∧
        ∀ k x, g.slice? k = some x →
          ∃ y, h.slice? k = some y ∧
            (x.exited = true → y.s = x.s ∧ ∀ j, y.lane j = x.lane j) ∧
            (x.exited = false →
              (∀ (j : Fin 4) (r : Fin 256), (y.lane j).get r.val = (lastLane ws k j.val r.val).getD ((x.lane j).get r.val)) ∧
              ∀ r : SReg, y.getS r = (lastScalar ws k r).getD (x.getS r))

/-- R217 to R220: the permutes read a register of another lane of the group, modulo the group's width. R221: PRMT picks four
bytes of the pair (srcb, srca), or their signs, by the nibbles of its third source. R159, R219, R353: a SWAP of distance 0,
or of one that a group of the gang is not wider than, is an illegal encoding with field code 0xE in every group of the gang.
The model's own choices in it: log 27. -/
def Obligations.Permutes : Prop :=
  (∀ (s : State) (gd : Guard) (d a b : LReg) (imm : Word) (m : Fin 64),
     let width := fun g => (s.cur.source g).width
     let lane := fun (g : Group) (x : Slice) (j : Fin 4) => 4 * (s.was g x).num + j.val
     let puts := fun (n : Group → Slice → Fin 4 → Nat) =>
       Host.Outcome.next (s.laneWrites gd fun g x j l => l.put (s.physOf g x d) (s.laneOf g a (n g x j)) false)
     (s.unmarked [.v a, .v b] [.v d] = true → s.openLanes [a] = true →
       (s.cleanLanes gd [.v b] = true → exec (.shfl ⟨gd, d, a, b⟩) s = puts (fun g x j => (s.reg g x j b).toNat % width g)) ∧
       (s.gangAll (fun g _ => !(s.leadOf gd g b).2) = true →
         exec (.bcast ⟨gd, d, a, b⟩) s = puts (fun g _ _ => (s.leadOf gd g b).1.toNat % width g) ∧
         exec (.rot ⟨gd, d, a, b⟩) s = puts (fun g x j => (lane g x j + (s.leadOf gd g b).1.toNat) % width g))) ∧
     (s.unmarked [.v a] [.v d] = true → s.openLanes [a] = true →
       exec (.bcastImm ⟨gd, d, a, imm⟩) s = puts (fun g _ _ => imm.toNat % width g) ∧
       exec (.rotImm ⟨gd, d, a, imm⟩) s = puts (fun g x j => (lane g x j + imm.toNat) % width g) ∧
       (1 ≤ m.val → (∀ p ∈ s.members, m.val < p.1.width) → exec (.swap ⟨gd, d, a, m⟩) s = puts (fun g x j => lane g x j ^^^ m.val)))) ∧
  (∀ (s : State) (o : PrmtArgs), s.unmarked [.v o.a, .v o.b, .v o.c] [.v o.d] = true →
     s.cleanLanes o.g [.v o.a, .v o.b, .v o.c] = true →
     exec (.prmt o) s = .next (s.laneWrites o.g fun g x j l =>
       let pick := fun (k : Nat) =>
         let sel := ((s.reg g x j o.c).extractLsb' (4 * k) 4).toNat
         let byte := (s.reg g x j o.b ++ s.reg g x j o.a).extractLsb' (8 * (sel % 8)) 8
         if sel < 8 then byte else if byte.msb then 0xFF#8 else 0#8
       l.put (s.physOf g x o.d) (pick 3 ++ pick 2 ++ pick 1 ++ pick 0) false)) ∧
  ∀ (s : State) (o : SwapArgs), (o.m.val = 0 ∨ ∃ p ∈ s.members, p.1.width ≤ o.m.val) →
    exec (.swap o) s = .next (s.raiseGang s.cur.plane { cls := .illegalEncoding, reason := 0xE })

/-- R177, R226: a 32-bit scalar instruction writes its result in every slice of the gang, which then goes past it. -/
def Obligations.Scalar32 : Prop :=
  ∀ (s : State) (d a b : SReg) (imm : Word),
    ∀ p ∈ ([(.saddI32, .saddI32Imm, fun x y => BitVec.ofNat 32 (x.toNat + y.toNat)),
            (.ssubI32, .ssubI32Imm, fun x y => BitVec.ofInt 32 (x.toInt - y.toInt)),
            (.smulI32, .smulI32Imm, fun x y => BitVec.ofInt 32 (x.toInt * y.toInt)),
            (.smulhiI32, .smulhiI32Imm, fun x y => (x.signExtend 64 * y.signExtend 64).extractLsb' 32 32),
            (.smulhiN32, .smulhiN32Imm, fun x y => (x.zeroExtend 64 * y.zeroExtend 64).extractLsb' 32 32),
            (.sminI32, .sminI32Imm, fun x y => if x.toInt < y.toInt then x else y),
            (.smaxI32, .smaxI32Imm, fun x y => if x.toInt < y.toInt then y else x),
            (.sminN32, .sminN32Imm, fun x y => if x.toNat < y.toNat then x else y),
            (.smaxN32, .smaxN32Imm, fun x y => if x.toNat < y.toNat then y else x),
            (.sshl, .sshlImm, fun x y => BitVec.ofNat 32 (x.toNat * 2 ^ y.toNat)),
            (.sshrN32, .sshrN32Imm, fun x y => BitVec.ofNat 32 (x.toNat / 2 ^ y.toNat)),
            (.sshrI32, .sshrI32Imm, fun x y => BitVec.ofInt 32 (x.toInt / (2 ^ y.toNat : Nat))),
            (.sand, .sandImm, fun x y => x &&& y), (.sor, .sorImm, fun x y => x ||| y), (.sxor, .sxorImm, fun x y => x ^^^ y),
            (.sandn, .sandnImm, fun x y => x &&& ~~~y)] : List ((SclR → Instr) × (SclI → Instr) × (Word → Word → Word))),
      (s.unmarked [.s a, .s b] [.s d] = true → s.cleanScalars [.s a, .s b] = true →
        exec (p.1 ⟨d, a, b⟩) s = .next (s.mapGang fun _ x => (x.setS d (p.2.2 (x.getS a) (x.getS b))).done)) ∧
      (s.unmarked [.s a] [.s d] = true → s.cleanScalars [.s a] = true →
        exec (p.2.1 ⟨d, a, imm⟩) s = .next (s.mapGang fun _ x => (x.setS d (p.2.2 (x.getS a) imm)).done))

/-- R226, R227: moves, counts and comparisons: SMOV, SPOPC, SCLZ, SCMP. R223, R227: 64-bit scalar arithmetic on pairs, the
low word in the even register; an immediate is sign-extended, and a shift count is a whole register, unsigned, or the low six
bits of an immediate. -/
def Obligations.ScalarMovesAnd64 : Prop :=
  (∀ (s : State) (d a b : SReg) (imm : Word) (cc : Cmp),
     let holds := fun {w : Nat} (x y : BitVec w) => match cc with
       | .eq => decide (x = y) | .ne => decide (x ≠ y) | .lt => decide (x.toInt < y.toInt) | .ge => decide (x.toInt ≥ y.toInt)
       | .ltu => decide (x.toNat < y.toNat) | .geu => decide (x.toNat ≥ y.toNat)
     let flag := fun (c : Bool) => if c then (1 : Word) else 0
     let pair := fun (x : Slice) (k : SReg) => (x.getS (up k) ++ x.getS k : DWord)
     let puts := fun (v : Slice → Word) => Host.Outcome.next (s.mapGang fun _ x => (x.setS d (v x)).done)
     let puts2 := fun (v : Slice → DWord) => Host.Outcome.next (s.mapGang fun _ x =>
       ((x.setS d ((v x).extractLsb' 0 32)).setS (up d) ((v x).extractLsb' 32 32)).done)
     (s.unmarked [.s a] [.s d] = true → s.cleanScalars [.s a] = true →
       exec (.smovI32 ⟨d, a⟩) s = puts (fun x => x.getS a) ∧
       exec (.spopc ⟨d, a⟩) s = puts (fun x => BitVec.ofNat 32 ((List.range 32).filter fun i => (x.getS a).getLsbD i).length) ∧
       exec (.sclz ⟨d, a⟩) s =
         puts (fun x => BitVec.ofNat 32 ((List.range 32).takeWhile fun i => !(x.getS a).getLsbD (31 - i)).length) ∧
       exec (.scmpI32Imm ⟨cc, d, a, imm⟩) s = puts (fun x => flag (holds (x.getS a) imm))) ∧
     (s.unmarked [.s a, .s b] [.s d] = true → s.cleanScalars [.s a, .s b] = true →
       exec (.scmpI32 ⟨cc, d, a, b⟩) s = puts (fun x => flag (holds (x.getS a) (x.getS b)))) ∧
     (s.unmarked (sPair a ++ sPair b) [.s d] = true → s.cleanScalars (sPair a ++ sPair b) = true →
       exec (.scmpI64 ⟨cc, d, a, b⟩) s = puts (fun x => flag (holds (pair x a) (pair x b)))) ∧
     (s.unmarked [] [.s d] = true → exec (.smovI32Imm ⟨d, imm⟩) s = puts (fun _ => imm)) ∧
     (s.unmarked [] (sPair d) = true → exec (.smovI64Imm ⟨d, imm⟩) s = puts2 (fun _ => imm.signExtend 64)) ∧
     (s.unmarked (sPair a) (sPair d) = true → s.cleanScalars (sPair a) = true →
       exec (.smovI64 ⟨d, a⟩) s = puts2 (fun x => pair x a))) ∧
  ∀ (s : State) (d a b : SReg) (imm : Word),
    let pair := fun (x : Slice) (k : SReg) => (x.getS (up k) ++ x.getS k : DWord)
    let puts := fun (v : Slice → DWord) => Host.Outcome.next (s.mapGang fun _ x =>
      ((x.setS d ((v x).extractLsb' 0 32)).setS (up d) ((v x).extractLsb' 32 32)).done)
    (∀ p ∈ ([(.saddI64, .saddI64Imm, fun x y => BitVec.ofNat 64 (x.toNat + y.toNat)),
             (.ssubI64, .ssubI64Imm, fun x y => BitVec.ofInt 64 (x.toInt - y.toInt)),
             (.smulI64, .smulI64Imm, fun x y => BitVec.ofInt 64 (x.toInt * y.toInt))] :
        List ((SclR → Instr) × (SclI → Instr) × (DWord → DWord → DWord))),
      (s.unmarked (sPair a ++ sPair b) (sPair d) = true → s.cleanScalars (sPair a ++ sPair b) = true →
        exec (p.1 ⟨d, a, b⟩) s = puts (fun x => p.2.2 (pair x a) (pair x b))) ∧
      (s.unmarked (sPair a) (sPair d) = true → s.cleanScalars (sPair a) = true →
        exec (p.2.1 ⟨d, a, imm⟩) s = puts (fun x => p.2.2 (pair x a) (imm.signExtend 64)))) ∧
    ∀ p ∈ ([(.sshlN64, .sshlN64Imm, fun x n => BitVec.ofNat 64 (x.toNat * 2 ^ n)),
            (.sshrN64, .sshrN64Imm, fun x n => BitVec.ofNat 64 (x.toNat / 2 ^ n))] :
        List ((SclR → Instr) × (SclI → Instr) × (DWord → Nat → DWord))),
      (s.unmarked (sPair a ++ [.s b]) (sPair d) = true → s.cleanScalars (sPair a ++ [.s b]) = true →
        exec (p.1 ⟨d, a, b⟩) s = puts (fun x => p.2.2 (pair x a) (x.getS b).toNat)) ∧
      (s.unmarked (sPair a) (sPair d) = true → s.cleanScalars (sPair a) = true →
        exec (p.2.1 ⟨d, a, imm⟩) s = puts (fun x => p.2.2 (pair x a) (imm.toNat % 64)))

/-- R126, R127, R178: what a fixed-latency integer instruction of the lanes leaves as it was, in every form and whether or
not lanes are put off for poison: every byte of memory, everything outside the slices of the issuing gang, and in those
slices all but the named lane register, the named predicate and the masks. R177, R226: what a scalar instruction leaves as it
was: every byte of memory, everything outside the slices of the gang, every lane register and predicate, and in the gang's
slices every scalar register but its destination. -/
def Obligations.RegisterFrames : Prop :=
  (∀ (s t : State) (gd : Guard) (a b d : LReg) (imm : Word) (pd pa pb : PReg),
     ∀ p ∈ ([(.addI32 ⟨gd, d, a, b⟩, [.v a, .v b], some d, none), (.subI32 ⟨gd, d, a, b⟩, [.v a, .v b], some d, none),
             (.mulI32 ⟨gd, d, a, b⟩, [.v a, .v b], some d, none), (.mulhiI32 ⟨gd, d, a, b⟩, [.v a, .v b], some d, none),
             (.mulhiN32 ⟨gd, d, a, b⟩, [.v a, .v b], some d, none), (.minI32 ⟨gd, d, a, b⟩, [.v a, .v b], some d, none),
             (.maxI32 ⟨gd, d, a, b⟩, [.v a, .v b], some d, none), (.minN32 ⟨gd, d, a, b⟩, [.v a, .v b], some d, none),
             (.maxN32 ⟨gd, d, a, b⟩, [.v a, .v b], some d, none), (.and ⟨gd, d, a, b⟩, [.v a, .v b], some d, none),
             (.or ⟨gd, d, a, b⟩, [.v a, .v b], some d, none), (.xor ⟨gd, d, a, b⟩, [.v a, .v b], some d, none),
             (.andn ⟨gd, d, a, b⟩, [.v a, .v b], some d, none), (.shl ⟨gd, d, a, b⟩, [.v a, .v b], some d, none),
             (.shrN32 ⟨gd, d, a, b⟩, [.v a, .v b], some d, none), (.shrI32 ⟨gd, d, a, b⟩, [.v a, .v b], some d, none),
             (.rol ⟨gd, d, a, b⟩, [.v a, .v b], some d, none), (.pack ⟨gd, d, a, b⟩, [.v a, .v b], some d, none),
             (.addI32Imm ⟨gd, d, a, imm⟩, [.v a], some d, none), (.subI32Imm ⟨gd, d, a, imm⟩, [.v a], some d, none),
             (.shlImm ⟨gd, d, a, imm⟩, [.v a], some d, none), (.xorImm ⟨gd, d, a, imm⟩, [.v a], some d, none),
             (.popc ⟨gd, d, a⟩, [.v a], some d, none), (.clz ⟨gd, d, a⟩, [.v a], some d, none),
             (.brev ⟨gd, d, a⟩, [.v a], some d, none), (.mov ⟨gd, d, a⟩, [.v a], some d, none),
             (.absI32 ⟨gd, d, a⟩, [.v a], some d, none), (.negI32 ⟨gd, d, a⟩, [.v a], some d, none),
             (.movImm ⟨gd, d, imm⟩, [], some d, none), (.ptoi ⟨gd, d, pa⟩, [], some d, none), (.lid ⟨gd, d, .lane⟩, [], some d, none),
             (.seteqI32 ⟨gd, pd, a, b⟩, [.v a, .v b], none, some pd), (.setltI32 ⟨gd, pd, a, b⟩, [.v a, .v b], none, some pd),
             (.setleN32 ⟨gd, pd, a, b⟩, [.v a, .v b], none, some pd), (.setgtN32Imm ⟨gd, pd, a, imm⟩, [.v a], none, some pd),
             (.pmov ⟨gd, pd, pa⟩, [], none, some pd), (.pnot ⟨gd, pd, pa⟩, [], none, some pd),
             (.pand ⟨gd, pd, pa, pb⟩, [], none, some pd), (.por ⟨gd, pd, pa, pb⟩, [], none, some pd),
             (.pxor ⟨gd, pd, pa, pb⟩, [], none, some pd)] : List (Instr × List Reg × Option LReg × Option PReg)),
       s.unmarked p.2.1 (p.2.2.1.toList.map Reg.v) = true → exec p.1 s = .next t →
       s.SameBytes t ∧ s.SameShells t ∧
       ∀ u n k x, s.sliceAt u n k = some x →
         ∃ y, t.sliceAt u n k = some y ∧
           (¬ (u = s.cur.team ∧ x.inGang s.cur.gang = true) → y = x) ∧
           x.SameScalars y ∧
           ∀ g, s.group? u n = some g → ∀ j : Fin 4,
             (∀ i, (∀ r, p.2.2.1 = some r → i ≠ s.physOf g x r) →
               (y.lane j).get i = (x.lane j).get i ∧ (y.lane j).poisoned i = (x.lane j).poisoned i) ∧
             (∀ q : PReg, p.2.2.2 ≠ some q → (y.lane j).pred q = (x.lane j).pred q) ∧
             (x.planeNext = none → (y.lane j).pl = (x.lane j).pl)) ∧
  ∀ (s t : State) (d a b : SReg) (imm : Word) (cc : Cmp),
    ∀ p ∈ ([(.saddI32 ⟨d, a, b⟩, [.s a, .s b], [d]), (.ssubI32 ⟨d, a, b⟩, [.s a, .s b], [d]), (.smulI32 ⟨d, a, b⟩, [.s a, .s b], [d]),
            (.smulhiI32 ⟨d, a, b⟩, [.s a, .s b], [d]), (.smulhiN32 ⟨d, a, b⟩, [.s a, .s b], [d]), (.sand ⟨d, a, b⟩, [.s a, .s b], [d]),
            (.sor ⟨d, a, b⟩, [.s a, .s b], [d]), (.sxor ⟨d, a, b⟩, [.s a, .s b], [d]), (.sandn ⟨d, a, b⟩, [.s a, .s b], [d]),
            (.sshl ⟨d, a, b⟩, [.s a, .s b], [d]), (.sshrN32 ⟨d, a, b⟩, [.s a, .s b], [d]), (.sshrI32 ⟨d, a, b⟩, [.s a, .s b], [d]),
            (.scmpI32 ⟨cc, d, a, b⟩, [.s a, .s b], [d]), (.saddI32Imm ⟨d, a, imm⟩, [.s a], [d]), (.sandImm ⟨d, a, imm⟩, [.s a], [d]),
            (.smovI32 ⟨d, a⟩, [.s a], [d]), (.smovI32Imm ⟨d, imm⟩, [], [d]), (.spopc ⟨d, a⟩, [.s a], [d]), (.sclz ⟨d, a⟩, [.s a], [d]),
            (.saddI64 ⟨d, a, b⟩, sPair a ++ sPair b, [d, up d]), (.ssubI64 ⟨d, a, b⟩, sPair a ++ sPair b, [d, up d]),
            (.smulI64 ⟨d, a, b⟩, sPair a ++ sPair b, [d, up d]), (.sshlN64 ⟨d, a, b⟩, sPair a ++ [.s b], [d, up d]),
            (.scmpI64 ⟨cc, d, a, b⟩, sPair a ++ sPair b, [d]), (.smovI64 ⟨d, a⟩, sPair a, [d, up d])] :
        List (Instr × List Reg × List SReg)),
      s.unmarked p.2.1 (p.2.2.map Reg.s) = true → s.cleanScalars p.2.1 = true → exec p.1 s = .next t →
      s.SameBytes t ∧ s.SameShells t ∧
      ∀ u n k x, s.sliceAt u n k = some x →
        ∃ y, t.sliceAt u n k = some y ∧
          (¬ (u = s.cur.team ∧ x.inGang s.cur.gang = true) → y = x) ∧
          (∀ r : SReg, r ∉ p.2.2 → y.getS r = x.getS r ∧ y.sp.getLsbD r.val = x.sp.getLsbD r.val) ∧
          y.em = x.em ∧ y.f = x.f ∧ y.wb = x.wb ∧ y.lo = x.lo ∧ y.ie = x.ie ∧ y.marks = x.marks ∧ y.gang = x.gang ∧
          y.exited = x.exited ∧ y.deferred = x.deferred ∧
          ∀ j : Fin 4, (y.lane j).v = (x.lane j).v ∧ (y.lane j).vp = (x.lane j).vp ∧ (y.lane j).p = (x.lane j).p

/-- R355, R361: a lane whose source holds poison does not execute: its registers stay, its em bit is cleared, it joins the
deferred set, and the slice keeps a poison record of it; the other active lanes execute. R133, R165, R353: an instruction of
a gang of one slice that names a source with a pending mark has no effect of its own: no lane or scalar register of the slice
changes and the group's trap is taken, with class 0x06 and reason 0x1 in the record. R353, R361: a scalar source that holds
poison is a precise trap: in a gang of one slice, outside any replay, no register changes and the group's trap is taken with
class 0x22, reason 0x1. -/
def Obligations.BadSources : Prop :=
  (∀ (s : State) (o : LaneR) (u n k : Nat) (g : Group) (x : Slice) (j : Fin 4),
     s.unmarked [.v o.a, .v o.b] [.v o.d] = true → s.cur.first = true → u = s.cur.team → s.group? u n = some g →
     g.slice? k = some x → x.inGang s.cur.gang = true → x.dRec = none → s.active o.g g x j = true →
     ((x.lane j).poisoned (s.physOf g x o.a) || (x.lane j).poisoned (s.physOf g x o.b)) = true →
     ∀ mk ∈ ([.addI32, .subI32, .mulI32, .mulhiI32, .mulhiN32, .minI32, .maxI32, .minN32, .maxN32, .and, .or, .xor, .andn,
              .shl, .shrN32, .shrI32, .rol, .pack] : List (LaneR → Instr)),
       ∃ t y r, exec (mk o) s = .next t ∧ t.sliceAt u n k = some y ∧
         (y.lane j).v = (x.lane j).v ∧ (y.lane j).vp = (x.lane j).vp ∧ (y.lane j).p = (x.lane j).p ∧
         y.em.getLsbD j.val = false ∧ y.deferred.getLsbD j.val = true ∧
         y.dRec = some r ∧ r.fault.cls = .poison ∧ r.fault.reason = 1 ∧ r.flags.getLsbD 0 = true ∧ r.offset = x.offset) ∧
  (∀ (s : State) (o : LaneR) (g : Group) (x : Slice),
     s.cur.first = true → s.members = [(g, x)] → x.begins = true → x.marked (.v ((x.wb + o.a.val) % g.budget)) true = true →
     ∀ mk ∈ ([.addI32, .subI32, .mulI32, .and, .or, .xor, .shl, .rol, .shfl] : List (LaneR → Instr)),
       exec (mk o) s = .next (s.preciseTraps [(x, mkRec g x s.cur.plane { cls := .dependence, reason := 1, detail := BitVec.ofNat 64 o.a.val })])) ∧
  ∀ (s : State) (o : SclR) (g : Group) (x : Slice),
    s.members = [(g, x)] → s.unmarked [.s o.a, .s o.b] [.s o.d] = true → s.replayOk [(x, mkRec g x 0 { cls := .poison, reason := 1 })] = false →
    (∀ t ∈ s.teams, t.uid = s.cur.team → ∀ h ∈ t.groups, ∀ y ∈ h.slices, y.inGang s.cur.gang = true → y = x) →
    (x.sp.getLsbD o.a.val || x.sp.getLsbD o.b.val) = true →
    ∀ mk ∈ ([.saddI32, .ssubI32, .smulI32, .sand, .sor, .sxor, .sshl] : List (SclR → Instr)),
      exec (mk o) s = .next (s.raise [(x, mkRec g x 0 { cls := .poison, reason := 1 })])

/-- R131, R240: past an instruction a slice stands at its clause's next word, 4 or 8 bytes on, and its signature has taken in
the instruction's words, each after a rotation by 7. R241, R364: SIGCHK with the signature that every slice of the gang holds
sets it to 0, unfolded; in a gang of one slice with another signature it traps with class 0x23, the expected word low and the
slice's high in the detail, and the signature is 0 all the same. -/
def Obligations.WalkAndSignature : Prop :=
  (∀ (x : Slice) (b : ClauseBuf) (w : Word), x.cbuf = some b → x.wordAt 0 = some w →
     let fold := fun (sg w : Word) => (sg.rotateLeft 7) ^^^ w
     x.done.offset = x.offset + (if w.getLsbD 30 then 8 else 4) ∧
     x.done.sg = (if w.getLsbD 30 then fold (fold x.sg w) (x.extAt 0) else fold x.sg w) ∧
     (x.pos + (if w.getLsbD 30 then 2 else 1) < (b.planes[(0 : Fin 4)]).length → x.done.inClause = x.inClause ∧ x.done.cbuf = some b) ∧
     ((b.planes[(0 : Fin 4)]).length ≤ x.pos + (if w.getLsbD 30 then 2 else 1) → x.done.inClause = false ∧ x.done.cbuf = none) ∧
     x.done.s = x.s ∧ x.done.em = x.em ∧ x.done.wb = x.wb ∧ ∀ j, (x.done.lane j).v = (x.lane j).v ∧ (x.done.lane j).p = (x.lane j).p) ∧
  ∀ (s : State) (w : Word),
    (s.gangAll (fun _ x => x.sg == w) = true → exec (.sigchk w) s = .next (s.mapGang fun _ x => { x with sg := 0 }.advance)) ∧
    ∀ g x, s.alone g x → x.sg ≠ w →
      exec (.sigchk w) s = .next ((s.preciseTraps [(x, mkRec g x 0 { cls := .signature, detail := (x.sg ++ w : DWord) })]).updSlice
        s.cur.team g.num x.num fun y => { y with sg := 0 })

/-- R149, R178, R228: BRA. The slices whose condition holds continue at the target, the others at the next word; those that
fare otherwise than the gang's first slice leave it as a gang of their own. R131, R228, R353: in a gang of one slice, a taken
BRA whose target is no clause header of the text traps with class 0x08 and the target as detail. -/
def Obligations.Branches : Prop :=
  (∀ (s : State) (o : BraArgs) (t0 : Team),
     let taken := fun (x : Slice) => match o.cc with
       | .always => true
       | .z a => decide (x.getS a = 0) | .nz a => decide (x.getS a ≠ 0)
       | .ltz a => decide ((x.getS a).toInt < 0) | .gez a => decide (0 ≤ (x.getS a).toInt)
       | .cmp .eq a b => decide (x.getS a = x.getS b) | .cmp .ne a b => decide (x.getS a ≠ x.getS b)
       | .cmp .lt a b => decide ((x.getS a).toInt < (x.getS b).toInt) | .cmp .ge a b => decide ((x.getS b).toInt ≤ (x.getS a).toInt)
       | .cmp .ltu a b => decide ((x.getS a).toNat < (x.getS b).toNat) | .cmp .geu a b => decide ((x.getS b).toNat ≤ (x.getS a).toNat)
       | .none => decide (x.em = 0) | .any => decide (x.em ≠ 0) | .all => decide (x.em = 15)
     let reads := match o.cc with
       | .z a | .nz a | .ltz a | .gez a => [Reg.s a]
       | .cmp _ a b => [Reg.s a, Reg.s b]
       | _ => []
     s.named = true → s.team? s.cur.team = some t0 → s.unmarked reads [] = true → s.cleanScalars reads = true →
     (∀ m ∈ s.members, taken m.2 = true → s.isTarget t0 (m.2.offset + o.disp) = true) →
     ∃ t, exec (.bra o) s = .next t ∧
       ∀ u n k x, s.sliceAt u n k = some x →
         ∃ y, t.sliceAt u n k = some y ∧
           (¬ (u = s.cur.team ∧ x.inGang s.cur.gang = true) → y = x) ∧
           (u = s.cur.team → x.inGang s.cur.gang = true → ∀ m, s.members.head? = some m →
             (taken x = true → y.offset = x.offset + o.disp ∧ y.inClause = false ∧ y.cbuf = none) ∧
             (taken x = false → y.offset = x.done.offset) ∧
             (taken x = taken m.2 → y.gang = x.gang) ∧ (taken x ≠ taken m.2 → y.gang = t0.nextGang) ∧
             y.s = x.s ∧ y.em = x.em ∧ y.wb = x.wb ∧ ∀ j, (y.lane j).v = (x.lane j).v ∧ (y.lane j).p = (x.lane j).p)) ∧
  ∀ (s : State) (disp : Word) (g : Group) (x : Slice) (t0 : Team),
    s.alone g x → s.team? s.cur.team = some t0 → s.isTarget t0 (x.offset + disp) = false →
    let bad := [(x, mkRec g x 0 { cls := .branchTarget, detail := BitVec.ofNat 64 (x.offset + disp).toNat })]
    let t := s.preciseTraps bad
    exec (.bra ⟨.always, disp⟩) s = .next (if s.replayOk bad || s.control.getLsbD (16 + t0.partition.val) then t
      else t.partBy fun h y => y.inClause == false && [(g.num, x.num)].contains (h.num, y.num))

/-- R229, R230: CALL in a gang of one slice. The link register holds the window step and the return word, the window slides
up by w, its new registers read 0 without poison, positions that the register file has no room for are spilled, and the slice
continues at the target; while spills are under way it issues nothing. R229, R231: RET in a gang of one slice. The window
slides back by the link's step, positions that lie in the spill stack are filled, and the slice continues at the link's word.
R232: a CALL or RET that comes after a stack access of the gang which R267 holds back waits for it. -/
def Obligations.CallsAndReturns : Prop :=
  (∀ (s : State) (o : CallArgs) (g : Group) (x : Slice) (t0 : Team),
     s.alone g x → s.team? s.cur.team = some t0 → s.unmarked [] [.s o.d] = true → g.stackParts (g.gangMask s.cur.gang) = [] →
     x.offset.toNat + 8 < 2 ^ 28 → s.isTarget t0 (x.offset + o.disp) = true →
     let lo := max x.lo (x.wb + o.w.val + 64 - g.budget)
     (x.lo < lo → 4 * g.width * lo ≤ s.bound t0 .stack) →
     (∀ i, (x.lo ≤ i ∧ i < lo) ∨ (x.wb + 64 ≤ i ∧ i < x.wb + o.w.val + 64) →
       x.marked (.v (i % g.budget)) true = false ∧ x.marked (.v (i % g.budget)) false = false) →
     64 ≤ g.budget → g.budget ≤ 256 → x.num < g.width / 4 → g.stack.wf = true →
     ∃ t h y, exec (.call o) s = .next t ∧ t.group? s.cur.team g.num = some h ∧ h.slice? x.num = some y ∧
       y.getS o.d = BitVec.ofNat 32 (o.w.val * 2 ^ 26 + (x.offset.toNat + 8) / 4) ∧ (∀ r, r ≠ o.d → y.getS r = x.getS r) ∧
       y.wb = x.wb + o.w.val ∧ y.lo = lo ∧ y.offset = x.offset + o.disp ∧ y.inClause = false ∧ y.ie.valid = false ∧ y.em = x.em ∧
       y.hold = (if x.lo < lo then .spilling else .none) ∧
       (∀ j : Fin 4, ∀ i, i < g.budget →
         ((∃ q, x.wb + 64 ≤ q ∧ q < x.wb + o.w.val + 64 ∧ q % g.budget = i) →
           (y.lane j).get i = 0 ∧ (y.lane j).poisoned i = false) ∧
         ((∀ q, x.wb + 64 ≤ q → q < x.wb + o.w.val + 64 → q % g.budget ≠ i) → (y.lane j).get i = (x.lane j).get i)) ∧
       (∀ j : Fin 4, ∀ i, x.lo ≤ i → i < lo →
         h.stack.read (16 * (i * (g.width / 4) + x.num) + 4 * j.val) 4 = toLE 4 ((x.lane j).get (i % g.budget)).toNat) ∧
       ∀ a, (∀ j : Fin 4, ∀ i, x.lo ≤ i → i < lo →
         a < 16 * (i * (g.width / 4) + x.num) + 4 * j.val ∨ 16 * (i * (g.width / 4) + x.num) + 4 * j.val + 4 ≤ a) →
         h.stack.get a = g.stack.get a) ∧
  (∀ (s : State) (a : SReg) (g : Group) (x : Slice) (t0 : Team),
     s.alone g x → s.team? s.cur.team = some t0 → s.unmarked [.s a] [] = true → s.cleanScalars [.s a] = true →
     g.stackParts (g.gangMask s.cur.gang) = [] →
     let w := ((x.getS a).extractLsb' 26 6).toNat
     let back : Word := BitVec.ofNat 32 (4 * ((x.getS a).extractLsb' 0 26).toNat)
     w ≤ x.wb → s.isTarget t0 back = true →
     (∀ i, x.wb - w ≤ i → i < x.lo →
       x.marked (.v (i % g.budget)) true = false ∧ x.marked (.v (i % g.budget)) false = false) →
     64 ≤ g.budget → g.budget ≤ 256 →
     ∃ t y, exec (.ret a) s = .next t ∧ t.sliceAt s.cur.team g.num x.num = some y ∧
       y.s = x.s ∧ y.wb = x.wb - w ∧ y.lo = min x.lo (x.wb - w) ∧ y.offset = back ∧ y.inClause = false ∧ y.ie.valid = false ∧
       y.em = x.em ∧ y.gang = x.gang ∧ y.hold = (if x.wb - w < x.lo then .spilling else .none) ∧
       (x.lo ≤ x.wb - w → ∀ j, (y.lane j).v = (x.lane j).v) ∧
       (x.lo - (x.wb - w) ≤ g.budget → ∀ j : Fin 4, ∀ i, x.wb - w ≤ i → i < x.lo →
         (y.lane j).get (i % g.budget) =
           BitVec.ofNat 32 (fromLE (g.stack.read (16 * (i * (g.width / 4) + x.num) + 4 * j.val) 4)))) ∧
  ∀ (s : State) (o : CallArgs) (a : SReg) (g : Group), s.inGroup g → g.stackParts (g.gangMask s.cur.gang) ≠ [] →
    (∀ p ∈ g.stackParts (g.gangMask s.cur.gang), s.performPart s.cur.team g.num p.1 p.2 = none) →
    ∀ i ∈ [Instr.call o, .ret a], exec i s = .next (s.mapGang fun _ x => { x with hold := .order (some 0) })

/-- R188, R223, R233, R240: MSPLIT keeps em in sd and takes the lanes of the predicate; MELSE and JOIN, trap points, set em
from a saved mask; each folds its token into the signature, JOIN a second one. JOIN orders, in each slice, its own older
accesses of every class before its later ones, as FENCE.AR does. R128, R182, R234, R235, R242, R362: SPLANE names the planes
of the next clause, YIELD puts the gang off for 64 issues, IENTER opens a region at its clause's header with the window and
the mask as they are. -/
def Obligations.MasksPlanesRegions : Prop :=
  (∀ (s : State) (d a : SReg) (p : PReg) (neg : Bool),
     let holds := fun (x : Slice) (j : Fin 4) => (x.lane j).pred p != neg
     let mask := fun (x : Slice) => BitVec.ofNat 4
       ((if holds x 0 then 1 else 0) + (if holds x 1 then 2 else 0) + (if holds x 2 then 4 else 0) + (if holds x 3 then 8 else 0))
     let low := fun (x : Slice) => (x.getS a).extractLsb' 0 4
     (s.unmarked [] [.s d] = true → exec (.msplit ⟨d, p, neg⟩) s =
       .next (s.mapGang fun _ x => { x.setS d (x.em.zeroExtend 32) with em := x.em &&& mask x }.doneWith [0xE1])) ∧
     (s.unmarked [.s a] [] = true → s.cleanScalars [.s a] = true → s.undeferred = true →
       exec (.melse a) s = .next (s.mapGang fun _ x => { x with em := low x &&& ~~~x.em }.doneWith [0xE1]) ∧
       exec (.join a) s = .next ((s.updTeam s.cur.team (·.mapGroups fun g => (g.slices.filter (·.inGang s.cur.gang)).foldl
         (fun (h : Group) x => h.addFence (g.gangMask s.cur.gang) x .ar 0x3F true) g)).mapGang
           fun _ x => { x with em := low x }.doneWith [0xE1, 0xE2]))) ∧
  ∀ (s : State) (a : SReg),
    (s.unmarked [.s a] [] = true → s.cleanScalars [.s a] = true →
      exec (.splane a) s = .next (s.mapGang fun _ x => { x with planeNext := some ((x.getS a).extractLsb' 0 8) }.done)) ∧
    exec .yield s = .next (s.mapGang fun _ x => { x.done with defer := max x.done.defer 64 }) ∧
    exec .ienter s = .next (s.mapGang fun _ x =>
      { x with ie := { valid := true, window := BitVec.ofNat 16 x.wb, mask := x.em,
                       entry := match x.cbuf with | some b => b.base | none => x.offset }, replay := 0 }.done)

/-- R178, R184, R185, R188, R240: REGANG. When every live slice of the gang's only group stands in the gang at one offset
with one clause, the rendezvous completes at once: the slices go on as a gang with a number of its own, the signature takes
in 0xE2, and older accesses of every class come before later ones. While some live slice of a group has not come, the slices
of the gang wait. R175, R236: EXIT ends the slices of the gang, which then belong to no gang; their registers stay. R184: an
instruction that issues once for each group of its gang does so in each of them in turn, whose slices form a gang of their
own then. -/
def Obligations.RegangsAndExits : Prop :=
  ((∀ (s : State) (t0 : Team) (g : Group) (x : Slice),
     s.named = true → s.team? s.cur.team = some t0 → t0.groups = [g] → s.undeferred = true → s.calm s.cur.team = true →
     g.slices.head? = some x →
     (∀ y ∈ g.slices, y.inGang s.cur.gang = true ∧ y.offset = x.offset ∧ y.cbuf = x.cbuf) →
     exec .regang s = .next ((s.updTeam s.cur.team fun t =>
       { t with groups := [(g.addFence g.liveMask x .ar 0x3F false).mapSlices fun y => { y.doneWith [0xE2] with gang := t0.nextGang }],
                nextGang := t0.nextGang + 1 }).flagsSettled s.cur.team)) ∧
   ∀ (s : State) (g : Group) (t0 : Team) (y : Slice), s.inGroup g → s.team? s.cur.team = some t0 → s.undeferred = true →
     s.calmBut s.cur.team (fun h => h = .regang) = true → (∀ h ∈ t0.groups, h.num ≠ g.num → h.regangDone = none) →
     y ∈ g.live → y.gang ≠ s.cur.gang → (y.hold ≠ .regang ∨ ∃ m ∈ s.members, m.2.offset ≠ y.offset) →
     exec .regang s = .next ((s.mapGang fun _ x => { x with hold := .regang }).flagsSettled s.cur.team)) ∧
  (∀ (s : State), s.named = true → s.undeferred = true → s.calm s.cur.team = true → s.unraised = [] →
     ∃ t, exec .exit s = .next t ∧
       ∀ u n k x, s.sliceAt u n k = some x →
         ∃ y, t.sliceAt u n k = some y ∧
           (¬ (u = s.cur.team ∧ x.inGang s.cur.gang = true) → y = { x with f := y.f }) ∧
           (u = s.cur.team → x.inGang s.cur.gang = true → y.exited = true ∧ y.inGang s.cur.gang = false ∧ y.s = x.s ∧
             y.em = x.em ∧ ∀ j, (y.lane j).v = (x.lane j).v ∧ (y.lane j).p = (x.lane j).p)) ∧
  ∀ (s : State) (t : Team) (w : WaitpArgs) (v : WaitvArgs) (m : WaitvmArgs) (b : BarArgs), s.team? s.cur.team = some t →
    t.die.val < 4 → 2 ≤ s.gangGroups.length →
    ∀ i ∈ [Instr.waitp w, .waitv v, .waitvm m, .bar b, .regang],
      let parted := fun (s1 : State) (n : Nat) => match s1.team? s.cur.team with
        | none => s1
        | some t1 =>
          if (t1.members s.cur.gang).all fun m => m.1.num == n then { s1 with cur := s.cur }
          else { s1.updTeam s.cur.team (fun t =>
              { t.updGroup n (fun g => g.mapSlices fun x => if x.inGang s.cur.gang then { x with gang := t.nextGang } else x) with
                nextGang := t.nextGang + 1 }) with cur := { s.cur with gang := t1.nextGang } }
      let run := fun (ns : List Nat) => ns.foldl (fun (s1 : State) n => match exec i (parted s1 n) with
        | .next s2 => { s2 with cur := s.cur }
        | _ => s1) s
      (∀ ns n rest, s.gangGroups = ns ++ n :: rest → (parted (run ns) n).gangGroups = [n] ∧ (parted (run ns) n).onJenben5 = false) →
      exec i s = .next (run s.gangGroups)

/-- R48, R50, R237: SMODE reads the mode register of a slice's group; a write takes the value that the gang's highest slice
of the group holds, WR all its fields and RM its rounding mode; CLR reads the register and then clears its exception flags.
R50, R237, R353: in a gang of one slice, a mode value whose RM is 0 or above 5 traps with class 0x0C and the value as detail;
the mode register stays until then. -/
def Obligations.ModeRegister : Prop :=
  (∀ (s : State) (d a : SReg), s.named = true →
     let step := fun (m : Group → Slice → Word) (w : Group → Slice → Slice) =>
       Host.Outcome.next (s.updTeam s.cur.team (·.mapGroups fun g => match (g.slices.filter (·.inGang s.cur.gang)).getLast? with
         | none => g
         | some z => { g with mode := m g z, slices := g.slices.map fun x => if x.inGang s.cur.gang then (w g x).done else x }))
     (s.unmarked [] [.s d] = true →
       exec (.smodeRd d) s = step (fun g _ => g.mode) (fun g x => x.setS d g.mode) ∧
       exec (.smodeClr d) s = step (fun g _ => g.mode &&& 0xFFFFE0FF#32) (fun g x => x.setS d g.mode)) ∧
     (s.unmarked [.s a] [] = true → s.cleanScalars [.s a] = true →
       (∀ t ∈ s.teams, t.uid = s.cur.team → ∀ g ∈ t.groups, ∀ z, (g.slices.filter (·.inGang s.cur.gang)).getLast? = some z →
         1 ≤ ((z.getS a).extractLsb' 0 3).toNat ∧ ((z.getS a).extractLsb' 0 3).toNat ≤ 5) →
       exec (.smodeWr a) s = step (fun _ z => z.getS a &&& 0x1F3F#32) (fun _ x => x) ∧
       exec (.smodeRm a) s = step (fun g z => (g.mode &&& 0xFFFFFFF8#32) ||| (z.getS a &&& 7#32)) (fun _ x => x))) ∧
  ∀ (s : State) (a : SReg) (g : Group) (x : Slice), s.alone g x → s.unmarked [.s a] [] = true → s.cleanScalars [.s a] = true →
    (((x.getS a).extractLsb' 0 3).toNat = 0 ∨ 5 < ((x.getS a).extractLsb' 0 3).toNat) →
    ∀ i ∈ [Instr.smodeWr a, Instr.smodeRm a],
      exec i s = .next (s.preciseTraps [(x, mkRec g x 0 { cls := .modeValue, detail := BitVec.ofNat 64 (x.getS a).toNat })])

/-- R243, R350, R353: TRAP in a gang of one slice, with the partition's debug bit clear, in a group whose older accesses have
been performed. A record of class 0x24 with the TRAP's code is written (the partition's fault sequence number rises by one),
the launch has failed and keeps the class of its first record, the group has trapped, and every slice of it has stopped for
good. R349, R350: a record of a fault, when the partition has a fault ring and no access to the ring faults, is 64 bytes at
the ring's base plus 64 times the sequence number modulo the ring's size; without a ring nothing is written. The die's
counter takes one step first. R350, R352: the fields of a record, little-endian, and the numbers of the fault classes. R244,
R350, R353, R368: with the partition's debug bit set, BRK and TRAP hold the slices of a gang of one group in place of ending
it. A record with flags bit 3 is written, an event of code 8 names its class, the slices are held, those of BRK past it, and
the group's others stop before their next issue, or under slice stop before their next synchronisation. -/
def Obligations.TrapEntry : Prop :=
  (∀ (s : State) (code : BitVec 16) (g : Group) (x : Slice) (t : Team) (l : Launch),
     s.alone g x → s.team? s.cur.team = some t → s.launch? t.launch = some l → t.group? g.num = some g → g.num < 255 → x.num < 255 →
     g.trapped = false → g.ended = false → x.deferred = 0 → s.calm s.cur.team = true → g.laneOps = [] →
     s.control.getLsbD (16 + t.partition.val) = false → (∀ y ∈ g.slices, y.dbg = .none) →
     let r : Rec := { fault := { cls := .programTrap, reason := 0, detail := code.zeroExtend 64 }, flags := 0, group := BitVec.ofNat 8 g.num,
                      slice := BitVec.ofNat 8 x.num, lane := 0xFF, plane := 0, offset := x.offset, word := (x.wordAt 0).getD 0,
                      ext := x.extAt 0, laneMask := 0, stop := x.offset }
     ∃ s1 h l1, exec (.trap code) s = .next s1 ∧ s1.group? s.cur.team g.num = some h ∧ s1.launch? t.launch = some l1 ∧
       h.trapped = true ∧ (∀ y ∈ h.slices, y.exited = true ∧ y.hold = .none) ∧ h.keep = none ∧
       l1.failed = true ∧ (l.first = none → l1.first = some (0x24, (s.record t r).2)) ∧ (l.first ≠ none → l1.first = l.first) ∧
       (s1.part t.partition.val).faultSeq = (s.part t.partition.val).faultSeq + 1 ∧ s1.mem = (s.record t r).1.mem ∧
       s1.keys = s.keys ∧ s1.acl = s.acl ∧ s1.control = s.control) ∧
  (∀ (s : State) (t : Team) (l : Launch) (r : Rec), s.launch? t.launch = some l →
     let ring := (s.part t.partition.val).faultRing
     let n := (s.part t.partition.val).faultSeq
     let bytes := r.bytes t l ((s.die t.die.val).counter + 1) n
     let at' := (ring.extractLsb' 12 45).toNat * 2 ^ 12 + 64 * (n.toNat % 2 ^ (ring.extractLsb' 0 5).toNat)
     bytes.length = 64 ∧
     (ring.extractLsb' 0 5 = 0 → (s.record t r).2 = 0 ∧ (s.record t r).1.mem = s.mem) ∧
     (ring.extractLsb' 0 5 ≠ 0 →
       ∀ s2, ((s.tick t.die.val).updPart t.partition.val fun x => { x with faultSeq := x.faultSeq + 1 }).writeGlobal
         t.die.val t.partition.val at' (bytes.map fun b => (b, false)) = .ok s2 →
       (s.record t r).2 = BitVec.ofNat 64 at' ∧ (s.record t r).1.mem = s2.mem)) ∧
  (∀ (r : Rec) (t : Team) (l : Launch) (g : Group) (counter : BitVec 48) (seq : Word), t.group? r.group.toNat = some g →
     let bs := r.bytes t l counter seq
     (∀ p ∈ [(0x00, 2, r.fault.cls.code), (0x02, 1, r.fault.reason), (0x03, 1, r.flags.toNat), (0x04, 1, t.partition.val),
             (0x05, 1, t.die.val), (0x06, 1, t.core), (0x07, 1, g.place.sub.val), (0x08, 4, l.tag.toNat), (0x0C, 4, l.num.toNat),
             (0x10, 4, t.lin), (0x14, 1, r.group.toNat), (0x15, 1, r.slice.toNat), (0x16, 1, r.lane.toNat), (0x17, 1, r.plane.toNat),
             (0x18, 4, r.offset.toNat), (0x1C, 4, l.version.toNat), (0x20, 4, r.word.toNat), (0x24, 4, r.ext.toNat),
             (0x28, 4, r.laneMask.toNat), (0x2C, 4, r.stop.toNat), (0x30, 8, r.fault.detail.toNat), (0x38, 6, counter.toNat),
             (0x3E, 2, seq.toNat)],
       fromLE ((bs.drop p.1).take p.2.1) = p.2.2 % 2 ^ (8 * p.2.1)) ∧
     ([.illegalInstruction, .illegalEncoding, .unimplementedGeneration, .unimplementedCombination, .privilege, .dependence, .planeAlignment,
       .branchTarget, .link, .spillOverflow, .codeIntegrity, .modeValue, .address, .apertureBound, .accessPath, .alignment, .page,
       .translationFormat, .key, .permission, .writeProtection, .remoteBound, .putTarget, .copyOperand, .scaleLayout, .pressedBlock, .vat,
       .matrixOperand, .stream, .powerBudget, .barrier, .curdOverflow, .permuteSource, .poison, .signature, .programTrap, .systemRegister,
       .debugStop, .clusterCheck] : List FaultClass).map (·.code) = (List.range 0x27).map (· + 1)) ∧
  ∀ (s : State) (code : BitVec 16) (g : Group) (x : Slice) (t : Team) (l : Launch),
    s.inGroup g → s.members.head? = some (g, x) → s.team? s.cur.team = some t → s.launch? t.launch = some l →
    s.control.getLsbD (16 + t.partition.val) = true → g.num < 256 → (∀ y ∈ g.slices, y.num < 255 ∧ y.dbg = .none) →
    (s.part t.partition.val).events.length < Config.eventDepth →
    let rest := fun (y : Slice) (b : Slice) => (¬ (y.inGang s.cur.gang = true) → y.exited = false →
      b.dbg = (if l.policy.getLsbD 1 then .stopSoon else .stopped)) ∧ (y.exited = true → b = { y with f := b.f })
    let told := fun (s1 : State) (cls : BitVec 8) (r : Rec) =>
      (s1.part t.partition.val).faultSeq = (s.part t.partition.val).faultSeq + 1 ∧ s1.mem = (s.record t r).1.mem ∧
      ∃ e, (s1.part t.partition.val).events = (s.part t.partition.val).events ++ [e] ∧ e.event.code = 8 ∧ e.event.reason = cls ∧
        e.event.tag = l.tag ∧ e.event.detail = (s.record t r).2
    (∃ s1 h, exec .brk s = .next s1 ∧ s1.group? s.cur.team g.num = some h ∧ h.trapped = g.trapped ∧
      told s1 0x26 { mkRec g x 0 { cls := .debugStop, reason := 1 } with flags := 8, stop := x.offset + 4 } ∧
      ∀ y ∈ g.slices, ∃ b, h.slice? y.num = some b ∧ rest y b ∧ (y.inGang s.cur.gang = true → b = { y.done with dbg := .held .debugStop })) ∧
    (g.trapped = false → g.ended = false → (∀ m ∈ s.members, m.2.deferred = 0) → s.calm s.cur.team = true → g.laneOps = [] →
      ∃ s1 h, exec (.trap code) s = .next s1 ∧ s1.group? s.cur.team g.num = some h ∧ h.trapped = false ∧
        told s1 0x24 { mkRec g x 0 { cls := .programTrap, detail := code.zeroExtend 64 } with flags := 8 } ∧
        ∀ y ∈ g.slices, ∃ b, h.slice? y.num = some b ∧ rest y b ∧
          (y.inGang s.cur.gang = true → b.dbg = .held .programTrap ∧ b.offset = y.offset ∧ b.exited = false))

/-- R127, R274, R276, R355: a lane of a load, store, atomic or compare-and-swap whose access fails a check, or would compute
with poison, makes no access: its em bit is cleared, it joins the deferred set, and the slice keeps the record of its first
deferred instruction, with flag 4 once another follows. The operation of the slice holds the accesses of other lanes alone,
and no register has changed. R356, R362, R363: a gang of one group that comes to a trap point with deferred lanes. It replays
when R362 lets it: once no result of its slices is on its way, each slice stands at its region's entry with the region's
mask, no deferred lane, and a replay count one higher, and the replay is counted; until then it waits. Else the group traps,
with the older record and the place at which the slice has stopped. -/
def Obligations.DeferredFaults : Prop :=
  (∀ (s : State) (gd : Guard) (op : AtomOp) (ty : ETy) (rm : Rnd) (ord : Order) (scope : Scope) (d a b c : LReg) (t : Team) (g : Group) (x : Slice)
     (j : Fin 4) (f : FaultInfo),
     s.named = true → s.freshOps = true → s.cur.first = true → s.team? s.cur.team = some t → (g, x) ∈ s.members → x.dFresh = false → s.active gd g x j = true →
     ∀ p ∈ ([(.ld ⟨gd, ty, ord, scope, d, a⟩, vPair a, vPair a, vRegs ty d, .read),
             (.st ⟨gd, ty, ord, scope, a, b⟩, vPair a ++ vRegs ty b, vPair a, [], .write),
             (.atom ⟨gd, op, ty, rm, ord, scope, d, a, b⟩, vPair a ++ vRegs ty b, vPair a ++ vRegs ty b, vRegs ty d, .write),
             (.cas ⟨gd, ty, ord, scope, d, a, b, c⟩, vPair a ++ vRegs ty b ++ vRegs ty c, vPair a ++ vRegs ty b ++ vRegs ty c, vRegs ty d, .write)] :
         List (Instr × List Reg × List Reg × List Reg × Access)),
       s.unmarked p.2.1 p.2.2.2.1 = true → s.cleanLanes gd p.2.2.1 = true →
       let n := ty.bytes
       let found := fun (k : Fin 4) => s.locate t g true p.2.2.2.2 (s.addrOf g x k a) n
       (∀ e, found j ≠ .park e) → found j = .fault f →
       ∃ t1 y r h, exec p.1 s = .next t1 ∧ t1.sliceAt s.cur.team g.num x.num = some y ∧ t1.group? s.cur.team g.num = some h ∧
         y.em.getLsbD j.val = false ∧ y.deferred.getLsbD j.val = true ∧ y.dRec = some r ∧ y.s = x.s ∧
         (∀ k : Fin 4, (y.lane k).v = (x.lane k).v ∧ (y.lane k).vp = (x.lane k).vp ∧ (y.lane k).p = (x.lane k).p) ∧
         (∀ q ∈ h.ops, q ∉ g.ops → q.slice = x.num → ∃ parts, q.job = .access ord parts [] ∧
           ∀ k ∈ parts, ∃ i, s.active gd g x i = true ∧ found i = .place k.spot) ∧
         (∀ e, x.dRec = some e → r = { e with flags := e.flags ||| 0x10 }) ∧
         (x.dRec = none → (∀ i < j, s.active gd g x i = false) →
           r.fault = f ∧ r.flags = 1 ∧ r.group = BitVec.ofNat 8 g.num ∧ r.slice = BitVec.ofNat 8 x.num ∧
           r.lane = BitVec.ofNat 8 (4 * x.num + j.val) ∧ r.plane = BitVec.ofNat 8 s.cur.plane.val ∧ r.offset = x.offset ∧
           ∀ i : Fin 4, (∃ e, s.active gd g x i = true ∧ found i = .fault e) → r.laneMask.getLsbD (4 * x.num + i.val) = true)) ∧
  ∀ (s : State) (g : Group) (t : Team) (l : Launch) (a : SReg) (m : MmaArgs) (v : MmvArgs) (b : BarArgs) (w : WaitpArgs) (z : WaitvArgs)
    (zm : WaitvmArgs), s.inGroup g → s.cur.first = true → s.begins = true → s.team? s.cur.team = some t → s.launch? t.launch = some l →
    let mat := fun (o : MatArgs) (x : Slice) => (matReads t g x o, matWrites g o)
    let none' := fun (_ : Slice) => (([], []) : List Reg × List Reg)
    ∀ p ∈ ([(.melse a, false, fun _ => ([.s a], [])), (.join a, false, fun _ => ([.s a], [])), (.regang, false, none'),
            (.bar b, false, fun _ => ([], [.s b.d])), (.waitp w, false, fun _ => ([.s w.a], [])),
            (.waitv z, false, fun _ => (sPair z.a ++ sRegs z.t z.b, sRegs z.t z.d)),
            (.waitvm zm, true, fun _ => (sPair zm.a ++ sRegs zm.t zm.b ++ sRegs zm.t zm.c, sRegs zm.t zm.d)),
            (.mma m, false, mat (mmaArgs m .mma)), (.mmas m, true, mat (mmaArgs m .mmas)), (.mmv v, false, mat (mmvArgs v)),
            (.exit, false, none')] : List (Instr × Bool × (Slice → List Reg × List Reg))),
      (p.2.1 = true → t.die.val < 4) → (∀ q ∈ s.members, s.unmarked (p.2.2 q.2).1 (p.2.2 q.2).2 = true) →
      let bad := s.members.filter fun q => q.2.deferred != 0
      let recs := bad.map fun q => (q.2, q.2.trapRec (mkRec g q.2 0 { cls := .poison }))
      let may := l.policy.getLsbD 0 = true ∧ l.header.flags / 2 % 2 = 1 ∧ ∀ q ∈ s.members, q.2.ie.valid = true ∧
        (∀ q' ∈ s.members, q'.2.ie.entry = q.2.ie.entry) ∧ q.2.replay.val < 2 ∧
        (q.2.deferred ≠ 0 → q.2.dOther = false ∧ ∀ r, q.2.dRec = some r → r.fault.cls = .poison)
      let quiet := ∀ q ∈ s.members, ∀ o ∈ g.ops, o.slice = q.2.num → o.returned = false →
        (∀ ws, o.job ≠ .result ws) ∧ (∀ ord ps ws, o.job ≠ .access ord ps ws) ∧ (∀ j, o.job ≠ .matrix j) ∧ ∀ n k, o.job ≠ .vatPart n k
      bad ≠ [] →
      (s.replayOk recs = true ↔ may) ∧
      (may → ¬ quiet → exec p.1 s = .next (s.mapGang fun _ y => { y with hold := .replay })) ∧
      (may → quiet → ∃ t1, exec p.1 s = .next t1 ∧ (t1.part t.partition.val).cReplay = (s.part t.partition.val).cReplay + 1 ∧
        (t1.part t.partition.val).faultSeq = (s.part t.partition.val).faultSeq + BitVec.ofNat 32 bad.length ∧
        (∀ k, (t1.launch? k).map (·.failed) = (s.launch? k).map (·.failed)) ∧
        ∀ q ∈ s.members, ∃ y, t1.sliceAt s.cur.team g.num q.2.num = some y ∧ y.offset = q.2.ie.entry ∧ y.em = q.2.ie.mask ∧
          y.deferred = 0 ∧ y.dRec = none ∧ y.replay.val = q.2.replay.val + 1 ∧ y.wb = q.2.wb ∧ y.s = q.2.s ∧ y.inClause = false ∧
          y.hold = .none ∧ y.exited = false ∧ ∀ k : Fin 4, (y.lane k).v = (q.2.lane k).v) ∧
      (¬ may → s.ownRecords = true → s.calm s.cur.team = true → g.laneOps = [] → g.trapped = false → g.ended = false → g.num < 255 →
        s.control.getLsbD (16 + t.partition.val) = false → (∀ y ∈ g.slices, y.dbg = .none ∧ y.num < 255) → ∀ q d, bad.head? = some q →
        q.2.dRec = some d → let r : Rec := { d with stop := q.2.offset }
        ∃ s1 h l1, exec p.1 s = .next s1 ∧ s1.group? s.cur.team g.num = some h ∧ s1.launch? t.launch = some l1 ∧ h.trapped = true ∧
          (∀ y ∈ h.slices, y.exited = true) ∧ l1.failed = true ∧ s1.mem = (s.record t r).1.mem ∧
          (l.first = none → l1.first = some (BitVec.ofNat 8 d.fault.cls.code, (s.record t r).2)) ∧
          (s1.part t.partition.val).faultSeq = (s.part t.partition.val).faultSeq + 1)

/-- R238, R239: SID and LDARG. R244, R245, R247: BRK does nothing while the partition's debug bit is clear, and MARK writes
no record while the die's trace control is clear: the gang goes past either. With trace control set MARK writes a trace
record for each slice in turn. The model's own choices in it: log 53. -/
def Obligations.IdentitiesAndMarks : Prop :=
  (∀ (s : State) (d : SReg) (t : Team) (l : Launch), s.team? s.cur.team = some t → s.launch? t.launch = some l →
     s.unmarked [] [.s d] = true →
     let puts := fun (v : Group → Slice → Word) => Host.Outcome.next (s.mapGang fun g x => (x.setS d (v g x)).done)
     (∀ p ∈ ([(.slice, fun _ x => x.num), (.group, fun g _ => g.num), (.role, fun g _ => if g.consumer then 1 else 0),
              (.teamLinear, fun _ _ => t.lin), (.teamX, fun _ _ => t.x), (.teamY, fun _ _ => t.y), (.teamZ, fun _ _ => t.z),
              (.die, fun _ _ => t.die.val), (.core, fun _ _ => t.core), (.subCore, fun g _ => g.place.sub.val),
              (.width, fun g _ => g.width), (.em, fun _ x => x.em.toNat), (.partition, fun _ _ => t.partition.val),
              (.codeVersion, fun _ _ => l.version.toNat), (.tag, fun _ _ => l.tag.toNat),
              (.generation, fun _ _ => if t.die.val < 4 then 6 else 5), (.level, fun _ _ => s.commonLevel), (.wb, fun _ x => x.wb),
              (.depth, fun g _ => 4 * g.width * (g.slices.map (·.lo)).foldl max 0)] : List (SidSel × (Group → Slice → Nat))),
       exec (.sid ⟨d, p.1⟩) s = puts (fun g x => BitVec.ofNat 32 (p.2 g x))) ∧
     ∀ off : Fin 16, exec (.ldarg ⟨d, off⟩) s = puts (fun _ _ => if 4 * off.val + 4 ≤ l.header.argBytes then l.args[off] else 0)) ∧
  ∀ (s : State) (w : Word) (t : Team), s.named = true → s.team? s.cur.team = some t → s.begins = true →
    (s.control.getLsbD (16 + t.partition.val) = false → exec .brk s = .next (s.mapGang fun _ x => x.done)) ∧
    ((s.die t.die.val).trace.getLsbD 0 = false → exec (.mark w) s = .next (s.mapGang fun _ x => x.done)) ∧
    ∀ l, (s.die t.die.val).trace.getLsbD 0 = true → s.launch? t.launch = some l →
      exec (.mark w) s = .next (s.allInTurn fun s1 _ g _ =>
        s1.trace t.die.val t.partition.val 1 g.num l.tag l.num (BitVec.ofNat 32 t.lin) (w.zeroExtend 64))

/-- R162, R246: a privileged instruction of a launch that is not privileged has no effect of its own: every group of the gang
takes the privilege fault. R392, R251: SYSRD of a privileged launch gives each slice of the gang the value of the register
that it names: 0x0 the die's logical counter, 0x1 the die's number, generation, common level and revision, 0x2 the grant,
0x10 to 0x12 the core map, 0x20 trace control. In a gang of one slice another number traps with class 0x25 and the number as
detail. R8, R251: SYSWR of a privileged launch, in a gang of one slice: trace control takes bit 0 of the pair; a core map,
while the die's grant is set, loses the cores whose bits are 0; a value with a bit that the map has not, or a write without
the grant, or another register, traps with class 0x25. -/
def Obligations.PrivilegedInstructions : Prop :=
  (∀ (s : State) (a : SReg) (o : SclU) (t : Team) (l : Launch),
     s.team? s.cur.team = some t → s.launch? t.launch = some l → l.privileged = false →
     ∀ i ∈ [Instr.patchreq a, Instr.tclk a, Instr.sysrd o, Instr.syswr o],
       exec i s = .next (s.raiseGang 0 { cls := .privilege })) ∧
  (∀ (s : State) (o : SclU) (t : Team) (l : Launch),
     s.team? s.cur.team = some t → s.launch? t.launch = some l → l.privileged = true →
     s.unmarked [.s o.a] (sPair o.d) = true → s.cleanScalars [.s o.a] = true → s.begins = true → s.named = true →
     let die := s.die t.die.val
     let value := fun (n : Nat) => match n with
       | 0 => some (die.counter.zeroExtend 64)
       | 1 => some (BitVec.ofNat 64
           (t.die.val + 2 ^ 8 * (if t.die.val < 4 then 6 else 5) + 2 ^ 16 * s.commonLevel + 2 ^ 24 * die.revision.toNat))
       | 2 => some (if die.grant then (1 : DWord) else 0)
       | 0x10 => some die.coreMap[0] | 0x11 => some die.coreMap[1] | 0x12 => some die.coreMap[2]
       | 0x20 => some die.trace
       | _ => none
     ((∀ m ∈ s.members, (value (m.2.getS o.a).toNat).isSome = true) → exec (.sysrd o) s = .next (s.mapGang fun _ y =>
       let v := (value (y.getS o.a).toNat).getD 0
       ((y.setS o.d (v.extractLsb' 0 32)).setS (up o.d) (v.extractLsb' 32 32)).done)) ∧
     ∀ g x, s.members = [(g, x)] → value (x.getS o.a).toNat = none → exec (.sysrd o) s =
       .next (s.preciseTraps [(x, mkRec g x 0 { cls := .systemRegister, detail := BitVec.ofNat 64 ((x.getS o.a).toNat % 65536) })])) ∧
  ∀ (s : State) (o : SclU) (g : Group) (x : Slice) (t : Team) (l : Launch),
    s.alone g x → s.team? s.cur.team = some t → s.launch? t.launch = some l → l.privileged = true →
    s.unmarked (.s o.d :: sPair o.a) [] = true → s.cleanScalars (.s o.d :: sPair o.a) = true →
    let die := s.die t.die.val
    let n := (x.getS o.d).toNat
    let v : DWord := x.getS (up o.a) ++ x.getS o.a
    let traps := exec (.syswr o) s =
      .next (s.preciseTraps [(x, mkRec g x 0 { cls := .systemRegister, detail := BitVec.ofNat 64 (n % 65536) })])
    (n = 0x20 → exec (.syswr o) s =
      .next ((s.updDie t.die.val fun d => { d with trace := v &&& 1#64 }).mapGang fun _ y => y.done)) ∧
    (∀ k : Fin 3, n = 0x10 + k.val →
      (die.grant = true → v &&& ~~~die.coreMap[k] = 0 → exec (.syswr o) s =
        .next ((s.updDie t.die.val fun d => { d with coreMap := d.coreMap.set k (d.coreMap[k] &&& v) }).mapGang fun _ y => y.done)) ∧
      (∀ i, i < 64 → 64 * k.val + i < (if t.die.val < 4 then 160 else 128) → v.getLsbD i = true → die.coreMap[k].getLsbD i = false → traps) ∧
      (die.grant = false → traps)) ∧
    (n ∉ [0x10, 0x11, 0x12, 0x20] → traps)

/-- R101, R272, R273, R275, R277: LD: each slice of the gang has an access for each of its active lanes, at the lane's
address, on its way to the lane's destination, which is marked pending. R272, R276, R277: ST: each slice has an access for
each of its active lanes, which stores the value of the lane's second source, little-endian, poisoned when that source is.
R298: DEPOSIT, while the die's curd unit has room: each active lane of the gang, in ascending group, slice and lane order,
adds a record of its launch with its key and the four words from the second source. The model's own choices in it: log 10. -/
def Obligations.LaneAccesses : Prop :=
  (∀ (s : State) (o : LdArgs),
     s.unmarked (vPair o.a) (vRegs o.t o.d) = true → s.cleanLanes o.g (vPair o.a) = true → s.named = true →
     let send := fun (s1 : State) (_ : Team) (g : Group) (x : Slice) => s1.accessIssued g x (vRegs o.t o.d) o.ord
       (s.lanePartsOf o.g g x o.a o.t (fun _ => .load) fun j => s.laneDstOf g x j o.t o.d)
     s.eachTurn send (fun s1 t g x => s1.lanesReach o.g t g x .read o.a o.t.bytes = true) →
     exec (.ld o) s = .next (s.inTurn s.memberNums send)) ∧
  (∀ (s : State) (o : StArgs),
     s.unmarked (vPair o.a ++ vRegs o.t o.b) [] = true → s.cleanLanes o.g (vPair o.a) = true → s.named = true →
     let poison := fun (g : Group) (x : Slice) (j : Fin 4) =>
       (s.valRegs g x o.t o.b 0).any fun r => ((s.was g x).lane j).poisoned r.1
     let send := fun (s1 : State) (_ : Team) (g : Group) (x : Slice) => s1.accessIssued g x [] o.ord
       (s.lanePartsOf o.g g x o.a o.t (fun j => .store ((toLE o.t.bytes (s.val g x j o.t o.b)).map fun b => (b, poison g x j))) fun _ => [])
     s.eachTurn send (fun s1 t g x => s1.lanesReach o.g t g x .write o.a o.t.bytes = true) →
     exec (.st o) s = .next (s.inTurn s.memberNums send)) ∧
  ∀ (s : State) (o : DepositArgs) (t : Team), s.named = true → s.team? s.cur.team = some t →
    s.unmarked (.v o.a :: vRun o.b 4) [] = true → s.cleanLanes o.g (.v o.a :: vRun o.b 4) = true →
    (s.die t.die.val).curd.length + 4 * s.members.length ≤ Config.curdRecords →
    exec (.deposit o) s = .next ((s.updDie t.die.val fun d =>
        { d with curd := d.curd ++ s.members.flatMap fun m => (lanes4.filter (s.active o.g m.1 m.2)).map fun j =>
            let w := fun (i : Nat) => s.reg m.1 m.2 j (Fin.ofNat 64 (o.b.val + i))
            { launch := t.launch, key := (s.reg m.1 m.2 j o.a).extractLsb' 0 16, payload := #v[w 0, w 1, w 2, w 3] } }).mapGang
      fun _ x => x.endPass s.cur)

/-- R275, R279 to R281: ATOM and CAS: each slice has an access for each of its active lanes, which is to read its location
and to write the new value indivisibly; the old value is on its way to the destination. No location holds poison when its
access is to be made. R280: the new value of an integer atomic, on unsigned numbers of the type's width. The model's own
choices in it: log 10, log 61. -/
def Obligations.LaneAtomics : Prop :=
  (∀ (s : State) (gd : Guard) (op : AtomOp) (ty : ETy) (rm : Rnd) (ord : Order) (scope : Scope) (d a b c : LReg), s.named = true →
     let run := fun (i : Instr) (rd : List Reg) (act : Group → Slice → Fin 4 → MemAct) =>
       s.unmarked rd (vRegs ty d) = true → s.cleanLanes gd rd = true →
       let send := fun (s1 : State) (_ : Team) (g : Group) (x : Slice) => s1.accessIssued g x (vRegs ty d) ord
         (s.lanePartsOf gd g x a ty (act g x) fun j => s.laneDstOf g x j ty d)
       s.eachTurn send (fun s1 t g x => s1.lanesReach gd t g x .write a ty.bytes = true ∧ ∀ j, s.active gd g x j = true →
         s1.findsPoison t (s.cur.source g) (.chip (spaceOf (s.addrOf g x j a)).1 (spaceOf (s.addrOf g x j a)).2) ty.bytes = false) →
       exec i s = .next (s.inTurn s.memberNums send)
     run (.atom ⟨gd, op, ty, rm, ord, scope, d, a, b⟩) (vPair a ++ vRegs ty b)
       (fun g x j => .atom op (effRm rm (s.cur.source g).mode) (s.val g x j ty b)) ∧
     run (.cas ⟨gd, ty, ord, scope, d, a, b, c⟩) (vPair a ++ vRegs ty b ++ vRegs ty c)
       (fun g x j => .cas (s.val g x j ty b) (s.val g x j ty c))) ∧
  ∀ (rm old b : Nat), old < 2 ^ 32 → b < 2 ^ 32 →
    atomNew .add .n32 rm old b = (old + b) % 2 ^ 32 ∧ atomNew .add .i32 rm old b = (old + b) % 2 ^ 32 ∧
    atomNew .add .n64 rm old b = (old + b) % 2 ^ 64 ∧
    atomNew .min .n32 rm old b = min old b ∧ atomNew .max .n32 rm old b = max old b ∧
    atomNew .min .i32 rm old b = (if (BitVec.ofNat 32 b).slt (BitVec.ofNat 32 old) then b else old) ∧
    atomNew .max .i32 rm old b = (if (BitVec.ofNat 32 old).slt (BitVec.ofNat 32 b) then b else old) ∧
    atomNew .and .n32 rm old b = old &&& b ∧ atomNew .or .n32 rm old b = old ||| b ∧ atomNew .xor .n32 rm old b = old ^^^ b ∧
    atomNew .exch .n32 rm old b = b

/-- R273, R275 to R281: SLD, SST, SATOM and SCAS: each slice of the gang has an access at its address, on-chip or in main
memory, and goes past the instruction. The model's own choices in it: log 10. -/
def Obligations.ScalarAccesses : Prop :=
  ∀ (s : State) (op : AtomOp) (ty : ETy) (rm : Rnd) (ord : Order) (scope : Scope) (d a b c : SReg) (spot : Group → Slice → Spot),
    s.named = true → s.begins = true →
    let val := fun (x : Slice) (k : SReg) => if ty.is64 then (x.pair k).toNat else (x.getS k).toNat % 2 ^ ty.bits
    let pair := fun (k : SReg) => if ty.is64 then [Reg.s k, .s (up k)] else [Reg.s k]
    let run := fun (i : Instr) (rd poison wr : List Reg) (acc : Access) (rmw : Bool) (act : Group → Slice → MemAct) =>
      s.unmarked rd wr = true → s.cleanScalars poison = true →
      let send := fun (s1 : State) (_ : Team) (g : Group) (x : Slice) => s1.scalarIssued g x wr ord
        { spot := spot g x, ty := ty, act := act g x, dst := if wr = [] then [] else scalarDstOf x.num ty d }
      s.whenInTurn send (fun s1 t g x => s1.locate t g false acc (x.pair a) ty.bytes = .place (spot g x) ∧
        (rmw = true → s1.findsPoison t g (spot g x) ty.bytes = false)) →
      exec i s = .next (s.allInTurn send)
    run (.sld ⟨ty, ord, scope, d, a⟩) (sPair a) (sPair a) (pair d) .read false (fun _ _ => .load) ∧
    run (.sst ⟨ty, ord, scope, a, b⟩) (sPair a ++ pair b) (sPair a) [] .write false
      (fun _ x => .store ((toLE ty.bytes (val x b)).map fun v => (v, (pair b).any fun r => match r with
        | .s k => x.sp.getLsbD k.val
        | .v _ => false))) ∧
    run (.satom ⟨op, ty, rm, ord, scope, d, a, b⟩) (sPair a ++ pair b) (sPair a ++ pair b) (pair d) .write true
      (fun g x => .atom op (effRm rm g.mode) (val x b)) ∧
    run (.scas ⟨ty, ord, scope, d, a, b, c⟩) (sPair a ++ pair b ++ pair c) (sPair a ++ pair b ++ pair c) (pair d) .write true
      (fun _ x => .cas (val x b) (val x c))

/-- R126, R264, R275: the issue of accesses changes no byte of memory, and in the slices of the gang no register: it leaves
operations, marks and flags. R255, R264, R267, R275 to R281: an access that a lane or slice has issued is performed: it reads
its place, and a store writes it; an atomic writes its new value and a compare-and-swap its own when the place holds the
value compared with, neither when it holds poison. While R267 holds it back nothing happens. With the last access of its
operation the registers are written. R111, R272, R277: the frame of a write at a place: under the key it is written with
every byte outside those written reads as before, outside the 32-byte granules touched under every key; no byte of another
space, team or group, and no register changes. R264, R267: which accesses hold back one that wants to be performed, among
those of the operations before it in group order. An operation with accesses left holds back one of its own class with a
common byte, but for two of the stream class; a lane access with acquire order that still reads holds back every lane access;
one that a release names is held back by every operation of the classes that it names; and a fence in group order between the
two holds back what it names: a release fence the writes, an acquire fence what comes after reads. -/
def Obligations.AccessesReturn : Prop :=
  (∀ (s : State) (ms : List (Nat × Nat)) (ord : Order) (wr : Group → Slice → List Reg) (parts : Group → Slice → List Part)
     (f : Group → Slice → Part) (scalar : Bool),
     let t := s.inTurn ms fun s1 _ g x =>
       if scalar then s1.scalarIssued g x (wr g x) ord (f g x) else s1.accessIssued g x (wr g x) ord (parts g x)
     s.SameBytes t ∧ t.tags = s.tags ∧ t.dies = s.dies ∧ t.partitions = s.partitions ∧ t.launches = s.launches ∧ t.landings = s.landings ∧
     ∀ u n k z, s.sliceAt u n k = some z → ∃ y, t.sliceAt u n k = some y ∧
       (¬ (u = s.cur.team ∧ (n, k) ∈ ms) → y = z) ∧ y.s = z.s ∧ y.sp = z.sp ∧ y.em = z.em ∧ y.wb = z.wb ∧ y.lo = z.lo ∧
       y.gang = z.gang ∧ y.exited = z.exited ∧ y.deferred = z.deferred ∧
       ∀ j : Fin 4, (y.lane j).v = (z.lane j).v ∧ (y.lane j).vp = (z.lane j).vp ∧ (y.lane j).p = (z.lane j).p) ∧
  (∀ (s : State) (o : PartRef) (t : Team) (g : Group) (p : Op) (ord : Order) (parts : List Part) (w : List RegWrite) (k : Part),
     s.team? o.team = some t → t.frozen = false → t.group? o.group = some g → g.op? o.op = some p → p.returned = false →
     p.job = .access ord parts w → parts[o.pick]? = some k →
     let n := k.ty.bytes
     let want : Want := { slice := p.slice, cls := 0, write := k.act.writes,
                          rel := if releases ord && k.act.writes then 1 else 0, spans := [s.span t n k.spot] }
     let s1 := s.visit t.die.val k.spot
     let bs := s1.readSpot t g n k.spot
     let old := fromLE (bs.map (·.1))
     let poison := bs.any (·.2)
     let put := fun (v : Nat) => s1.writeSpot o.team o.group ((toLE n v).map fun b => (b, false)) k.spot
     let s2 := match k.act with
       | .load => s1
       | .store b => s1.writeSpot o.team o.group b k.spot
       | .atom op rm b => if poison then s1 else put (atomNew op k.ty rm old b)
       | .cas c v => if poison = false ∧ old = c then put v else s1
     let low := BitVec.ofInt 32 (if k.ty.is64 then (old : Int) else intOf k.ty old)
     let ws := (k.dst.zip [low, BitVec.ofNat 32 (old / 2 ^ 32)]).map fun r => match r.1 with
       | .lane sl j i _ _ => .lane sl j i r.2 poison
       | .scalar sl i _ _ => .scalar sl i r.2 poison
     let next := s2.updOp o.team o.group o.op fun q => { q with job := .access ord (parts.eraseIdx o.pick) (w ++ ws) }
     (s.blocked t g p.prior want = true → exec (.memoryAccessReturn o) s = .next (s.rendezvous o.team)) ∧
     (s.blocked t g p.prior want = false → 2 ≤ parts.length → exec (.memoryAccessReturn o) s = .next (next.rendezvous o.team)) ∧
     (s.blocked t g p.prior want = false → parts.length = 1 → s.named = true → s.calm o.team = true → p.lateRead = false → p.path = none →
       p.landing = none → (∀ q ∈ g.ops, q.id = o.op → q = p) → (∀ x ∈ g.slices, ∀ q th, x.hold ≠ .path q th ∧ x.hold ≠ .pathFull q) →
       ∃ s3 h, exec (.memoryAccessReturn o) s = .next s3 ∧ s3.group? o.team o.group = some h ∧ h.op? o.op = none ∧
         s3.mem = s2.mem ∧ s3.tags = s2.tags ∧ (∀ u a, s3.sharedByte u a = s2.sharedByte u a) ∧
         (∀ u m a, s3.stackByte u m a = s2.stackByte u m a) ∧
         ∀ i x, g.slice? i = some x → ∃ y, h.slice? i = some y ∧
           (x.exited = true → y.s = x.s ∧ ∀ j, y.lane j = x.lane j) ∧
           (x.exited = false →
             (∀ (j : Fin 4) (r : Fin 256), (y.lane j).get r.val = (lastLane (w ++ ws) i j.val r.val).getD ((x.lane j).get r.val)) ∧
             ∀ r : SReg, y.getS r = (lastScalar (w ++ ws) i r).getD (x.getS r)))) ∧
  (∀ (s : State) (t : Team) (n : Nat) (bs : List (Byte × Bool)) (k : Spot), s.mem.wf = true → s.ChipTidy → s.team? t.uid = some t →
     let s1 := s.writeSpot t.uid n bs k
     let key := match k with
       | .main tg => tg.key
       | .chip _ _ => none
     let main := match k with
       | .main tg => some (mainAddr tg.die tg.off)
       | .chip .shared _ | .chip .stack _ => none
       | .chip _ off => some (mainAddr t.die.val ((s.allocation t.partition.val t.die.val).1 + off))
     (∀ a, (∀ f, main = some f → a < f ∨ f + bs.length ≤ a) → s1.byteAt key a = s.byteAt key a) ∧
     (∀ a, (∀ f, main = some f → a / 32 < f / 32 ∨ (f + bs.length - 1) / 32 < a / 32) → ∀ k1, s1.byteAt k1 a = s.byteAt k1 a) ∧
     (∀ u a, (u = t.uid → ∀ off, k = .chip .shared off → a < off ∨ off + bs.length ≤ a) → s1.sharedByte u a = s.sharedByte u a) ∧
     (∀ u m a, (u = t.uid → m = n → ∀ off, k = .chip .stack off → a < off ∨ off + bs.length ≤ a) →
       s1.stackByte u m a = s.stackByte u m a) ∧
     (∀ u m i, s1.sliceAt u m i = s.sliceAt u m i) ∧ s1.launches = s.launches ∧ s1.partitions = s.partitions ∧ s1.dies = s.dies) ∧
  ∀ (s : State) (t : Team) (g : Group) (prior : List Nat) (w : Want) (k : Nat) (a : Op), k ∈ prior → g.op? k = some a →
    (t.pending g a = true →
      (w.cls ≠ 4 → w.cls ∈ a.job.classes → spansMeet (s.opSpans t g a) w.spans = true → s.blocked t g prior w = true) ∧
      (∀ ord parts ws, a.job = .access ord parts ws → (ord = .acq ∨ ord = .ar) → parts.any (·.act.reads) = true → w.cls = 0 →
        s.blocked t g prior w = true) ∧
      (∀ c ∈ a.job.classes, w.rel.getLsbD c = true → s.blocked t g prior w = true)) ∧
    (∀ b ord cs, a.job = .fence ord cs false → (∃ j ∈ a.prior, g.op? j = some b) → t.pending g b = true → cs.getLsbD w.cls = true →
      (∃ c ∈ b.job.classes, cs.getLsbD c = true) →
      (ord = .ar ∨ (ord = .rel ∧ w.write = true) ∨ (ord = .acq ∧ b.job.stillReads = true ∧ b.returned = false)) →
      s.blocked t g prior w = true) ∧
    ((∀ j ∈ prior, ∀ p, g.op? j = some p → t.pending g p = false ∧ ∀ i ∈ p.prior, ∀ q, g.op? i = some q → t.pending g q = false) →
      s.blocked t g prior w = false)

/-- R101, R274: the checks of an access, in order: an address of no space, a global address of a lane, alignment, the
aperture's bound and, in the spill stack, the group's spill depth. R274, R276, R353, R359: a scalar access that fails a check
traps before it does anything, one that would read poison for a new value too; one that meets a page fault parks its slice,
which keeps its place and its registers, and writes a record. -/
def Obligations.AccessChecks : Prop :=
  (∀ (s : State) (t : Team) (g : Group) (acc : Access) (a : DWord) (n : Nat) (l : Launch), 0 < n → s.launch? t.launch = some l →
     let top := (a.extractLsb' 48 16).toNat
     let off := (a.extractLsb' 0 48).toNat
     let bound := if top = 0xFFFF then l.header.sharedKiB * 1024 else if top = 0xFFFE then l.header.spill
       else (s.allocation t.partition.val t.die.val).2
     (2 ^ 57 ≤ a.toNat → top < 0xFFFD → ∀ lane, s.locate t g lane acc a n = .fault { cls := .address, detail := a }) ∧
     (a.toNat < 2 ^ 57 → s.locate t g true acc a n = .fault { cls := .accessPath, detail := a }) ∧
     (a.toNat < 2 ^ 57 → a.toNat % n ≠ 0 → s.locate t g false acc a n = .fault { cls := .alignment, detail := a }) ∧
     (0xFFFD ≤ top → ∀ lane,
       (off % n ≠ 0 → s.locate t g lane acc a n = .fault { cls := .alignment, detail := a }) ∧
       (off % n = 0 → bound < off + n → s.locate t g lane acc a n = .fault { cls := .apertureBound, detail := a }) ∧
       (off % n = 0 → off + n ≤ bound → top = 0xFFFE → off < 4 * g.width * (g.slices.map (·.lo)).foldl max 0 →
         s.locate t g lane acc a n = .fault { cls := .apertureBound, detail := a }) ∧
       (off % n = 0 → off + n ≤ bound → (top = 0xFFFE → 4 * g.width * (g.slices.map (·.lo)).foldl max 0 ≤ off) →
         s.locate t g lane acc a n =
           .place (.chip (if top = 0xFFFF then .shared else if top = 0xFFFE then .stack else .scratch) off)))) ∧
  ∀ (s : State) (op : AtomOp) (ty : ETy) (rm : Rnd) (ord : Order) (scope : Scope) (d a b c : SReg) (g : Group) (x : Slice) (t : Team),
    s.alone g x → s.team? s.cur.team = some t →
    let addr : DWord := x.pair a
    let stops := fun (i : Instr) (f : FaultInfo) =>
      s.replayOk [(x, mkRec g x 0 f)] = false → exec i s = .next (s.raise [(x, mkRec g x 0 f)])
    ∀ p ∈ ([(.sld ⟨ty, ord, scope, d, a⟩, sPair a, sPair a, sRegs ty d, .read),
            (.sst ⟨ty, ord, scope, a, b⟩, sPair a ++ sRegs ty b, sPair a, [], .write),
            (.satom ⟨op, ty, rm, ord, scope, d, a, b⟩, sPair a ++ sRegs ty b, sPair a ++ sRegs ty b, sRegs ty d, .write),
            (.scas ⟨ty, ord, scope, d, a, b, c⟩, sPair a ++ sRegs ty b ++ sRegs ty c, sPair a ++ sRegs ty b ++ sRegs ty c, sRegs ty d, .write)] :
        List (Instr × List Reg × List Reg × List Reg × Access)),
      s.unmarked p.2.1 p.2.2.2.1 = true → s.cleanScalars p.2.2.1 = true →
      (∀ f, s.locate t g false p.2.2.2.2 addr ty.bytes = .fault f → stops p.1 f) ∧
      (∀ k, (p.1 = .satom ⟨op, ty, rm, ord, scope, d, a, b⟩ ∨ p.1 = .scas ⟨ty, ord, scope, d, a, b, c⟩) →
        s.locate t g false .write addr ty.bytes = .place k → s.findsPoison t g k ty.bytes = true →
        stops p.1 { cls := .poison, reason := 2, detail := BitVec.ofNat 64 (addr.toNat / 32 * 32) }) ∧
      (s.locate t g false p.2.2.2.2 addr ty.bytes = .park .page →
        ∃ t1 y, exec p.1 s = .next t1 ∧ t1.sliceAt s.cur.team g.num x.num = some y ∧
          y = { x with hold := .parked (BitVec.ofNat 64 addr.toNat) } ∧
          ∀ l, s.launch? t.launch = some l → (t1.part t.partition.val).faultSeq = (s.part t.partition.val).faultSeq + 1)

/-- R264, R267, R282: FENCE holds nothing: in each group of the gang an order joins what stands between the older accesses of
its slices and their later ones, and the gang goes on. R283, R184: WAITP lets a gang of one group go on once the path's
counter is at most each slice's threshold and no fault has been observed, and holds it until then. The oldest fault of the
path is raised instead, once; its record names the operation's own instruction. The model's own choices in it: log 20. -/
def Obligations.FencesAndPathWaits : Prop :=
  ((∀ (s : State) (o : FenceArgs), exec (.fence o) s =
     .next ((s.updTeam s.cur.team (·.mapGroups fun g => match g.slices.filter (·.inGang s.cur.gang) with
       | [] => g
       | x :: _ => g.addFence (g.gangMask s.cur.gang) x o.ord o.classes false)).mapGang fun _ x => x.done)) ∧
   ∀ (g : Group) (mask : BitVec 8) (x : Slice) (ord : Order) (cs : BitVec 6) (own : Bool),
     (∀ p ∈ g.ops, (p.returned = false ∧ p.job.classes ≠ [] ∨ p.landing ≠ none) → p.after &&& mask ≠ 0 → p.seq < g.issued →
       p.id ∈ g.priorTo mask) ∧
     (g.priorTo mask = [] → g.addFence mask x ord cs own = g) ∧
     (g.priorTo mask ≠ [] → ∃ p, (g.addFence mask x ord cs own).ops = g.ops ++ [p] ∧ p.job = .fence ord cs own ∧ p.prior = g.priorTo mask ∧
       p.slice = x.num ∧ p.after = mask ∧ p.seq = g.issued ∧ p.id = g.nextOp ∧ p.returned = true ∧
       (p.seq < g.issued + 1 → mask ≠ 0 → p.id ∈ ({ g.addFence mask x ord cs own with issued := g.issued + 1 } : Group).priorTo mask))) ∧
  ∀ (s : State) (o : WaitpArgs) (g : Group) (x : Slice), s.inGroup g → s.members.head? = some (g, x) → s.calm s.cur.team = true →
    s.unmarked [.s o.a] [] = true → s.cleanScalars [.s o.a] = true → s.undeferred = true →
    let held := s.mapGang fun _ y => { y with hold := .path o.path (y.getS o.a).toNat }
    ((∃ m ∈ s.members, (m.2.getS o.a).toNat < g.counter o.path) → exec (.waitp o) s = .next (held.flagsSettled s.cur.team)) ∧
    ((∀ m ∈ s.members, g.counter o.path ≤ (m.2.getS o.a).toNat) →
      (g.oldestFault o.path = none → exec (.waitp o) s = .next ((s.mapGang fun _ y => y.done).flagsSettled s.cur.team)) ∧
      ∀ q f, g.oldestFault o.path = some q → q.fault = some f →
        exec (.waitp o) s = .next (((held.updTeam s.cur.team fun t => { t with
            streams := t.streams.filter fun y => !(y.group == g.num && y.op == q.id)
            groups := t.groups.map fun h => if h.num = g.num then { h with faulted := h.faulted.filter (·.id != q.id) } else h }).trapSlices
          s.cur.team { fault := f, group := BitVec.ofNat 8 g.num, slice := BitVec.ofNat 8 q.slice, offset := q.offset, word := q.word,
                       ext := q.ext, stop := x.offset } (s.members.map (·.2.num))).rendezvous s.cur.team))

/-- R284, R285: WAITV and WAITVM read the location for each slice of a gang of one group in turn; a slice whose value meets
the condition takes it into its register, the others wait, and when no slice waits the gang goes on. WAITV_REREAD does the
same for the slices that still wait. A read that older accesses come before leaves its slice waiting. The model's own choices
in it: log 10. -/
def Obligations.ValueWaits : Prop :=
  ∀ (s : State) (o : WaitvmArgs) (masked : Bool) (g : Group) (t : Team) (spot : Group → Slice → Spot),
    s.inGroup g → s.team? s.cur.team = some t → s.undeferred = true → (masked = true → t.die.val < 4) → (masked = false → o.c = 0) →
    (o.t = .i32 ∨ o.t = .n32 ∨ o.t = .i64 ∨ o.t = .n64) →
    let rd := sPair o.a ++ sRegs o.t o.b ++ (if masked then sRegs o.t o.c else [])
    s.unmarked rd (sRegs o.t o.d) = true → s.cleanScalars rd = true →
    let n := o.t.bytes
    let wait := fun (s1 : State) (t : Team) (g : Group) (x : Slice) =>
      s1.updSlice t.uid g.num x.num fun y => { y with hold := .value masked o }
    let step := fun (s1 : State) (t : Team) (g : Group) (x : Slice) =>
      let s2 := s1.visit t.die.val (spot g x)
      let old := fromLE ((s2.readSpot t g n (spot g x)).map (·.1))
      let val := fun (k : SReg) => if o.t.is64 then (x.pair k).toNat else (x.getS k).toNat
      let m := if masked then old &&& val o.c else old
      let w := if o.t.is64 then 64 else 32
      let holds : Bool := match o.cc with
        | .eq => decide (m = val o.b)
        | .ne => decide (m ≠ val o.b)
        | .lt => decide ((BitVec.ofNat w m).toInt < (BitVec.ofNat w (val o.b)).toInt)
        | .ge => decide ((BitVec.ofNat w (val o.b)).toInt ≤ (BitVec.ofNat w m).toInt)
        | .ltu => decide (m < val o.b)
        | .geu => decide (val o.b ≤ m)
      if holds then
        (s2.updSlice t.uid g.num x.num fun y => if o.t.is64 then (y.setS o.d (BitVec.ofNat 32 old)).setS (up o.d) (BitVec.ofNat 32 (old / 2 ^ 32))
          else y.setS o.d (BitVec.ofNat 32 old)).parted t g x
      else wait s2 t g x
    let fine := fun (s1 : State) (t : Team) (g : Group) (x : Slice) =>
      s1.locate t g false .read (x.pair o.a) n = .place (spot g x) ∧ s1.mayRead t g x n (spot g x) = true ∧
      ((s1.visit t.die.val (spot g x)).readSpot t g n (spot g x)).any (·.2) = false
    let after := fun (s1 : State) => if s1.members.all fun m => m.2.sdone then s1.mapGang fun _ x => x.done else s1
    let run := if masked then exec (.waitvm o) s
      else exec (.waitv { t := o.t, ord := o.ord, scope := o.scope, cc := o.cc, d := o.d, a := o.a, b := o.b }) s
    (s.begins = true → s.eachTurn step fine → run = .next (after (s.inTurn s.memberNums step))) ∧
    (s.begins = true → (∀ m ∈ s.members, s.locate t g false .read (m.2.pair o.a) n = .place (spot g m.2) ∧ s.mayRead t g m.2 n (spot g m.2) = false) →
      run = .next (s.mapGang fun _ y => { y with hold := .value masked o })) ∧
    ∀ s0 : State, s = { s0 with cur := { team := s.cur.team, gang := s.cur.gang } } → t.frozen = false → g.drained = false →
      (∀ m ∈ s.members, m.2.dbg = .none ∧ (m.2.sdone = true ∧ m.2.hold = .none ∨ m.2.sdone = false ∧ m.2.hold = .value masked o)) →
      (∃ m ∈ s.members, m.2.sdone = false) →
      let s1 := s.mapGang fun _ x => if x.sdone then x else { x with hold := .none, asked := false }
      let waiting := (s.members.filter fun m => !m.2.sdone).map fun m => (m.1.num, m.2.num)
      (∀ ms m rest, waiting = ms ++ m :: rest → ∀ t1 g1 x1, (s1.inTurn ms step).team? s.cur.team = some t1 →
        (s1.inTurn ms step).group? s.cur.team m.1 = some g1 → (s1.inTurn ms step).sliceAt s.cur.team m.1 m.2 = some x1 →
        fine (s1.inTurn ms step) t1 g1 x1) →
      exec (.waitvReread { team := s.cur.team, gang := s.cur.gang }) s0 =
        .next ({ after (s1.inTurn waiting step) with cur := s0.cur }.rendezvous s.cur.team)

/-- R286 to R288: BAR of a gang of one group. While a live slice of the group has not come the gang waits. The last one makes
the group arrive; the last group's arrival ends the phase once every access that the groups have made before it has been
performed: each slice goes on with 0 in its register, and the barrier is clear. A time-out lets the groups that have arrived
go on with 1, and orders their accesses as FENCE.AR does. R287, R353: a BAR whose count exceeds the team's groups, differs
from the count of the phase, or meets slices of its group at another barrier, traps with class 0x1F and the barrier's number. -/
def Obligations.Barriers : Prop :=
  (let leave := fun (v : Word) (h : Group) => h.mapSlices fun y => match y.hold with
     | .barrier p => if y.exited then y else (y.setS p.d v).done
     | _ => y
   (∀ (s : State) (o : BarArgs) (g : Group) (t : Team), s.inGroup g → s.team? s.cur.team = some t → s.undeferred = true →
     (∀ m ∈ s.members, m.2.hold = .none) → s.unmarked [] [.s o.d] = true →
     s.calmBut s.cur.team (fun h => match h with | .barrier _ => true | _ => false) = true → t.counted = true →
     let b := t.barriers[o.barrier]
     o.count.val + 1 ≤ t.groups.length → (b.count = 0 ∨ b.count = o.count.val + 1) → g.num ∉ b.arrived →
     let here := fun (y : Slice) => if y.inGang s.cur.gang then some o else match y.hold with
       | .barrier p => some p
       | _ => none
     (∀ y ∈ g.live, ∀ p, here y = some p → p.barrier = o.barrier ∧ p.count = o.count) →
     let s1 := s.mapGang fun _ y => { y with hold := .barrier o }
     ((∃ y ∈ g.live, here y = none) → exec (.bar o) s = .next (s1.flagsSettled s.cur.team)) ∧
     ∀ first, (g.live.head?).bind here = some first → (∀ y ∈ g.live, here y ≠ none) →
       let arrived := b.arrived ++ [g.num]
       let counted := s1.updTeam s.cur.team fun u =>
         let b1 : Barrier := { count := o.count.val + 1, arrived := arrived, timeout := if b.count = 0 then first.timeout else b.timeout }
         { u with barriers := u.barriers.set o.barrier b1 }
       let busy := t.groups.any fun h => arrived.contains h.num && h.ops.any (t.pending h)
       ((arrived.length < o.count.val + 1 ∨ busy = true) → exec (.bar o) s = .next (counted.flagsSettled s.cur.team)) ∧
       (o.count.val + 1 ≤ arrived.length → busy = false → exec (.bar o) s = .next ((s1.updTeam s.cur.team fun u =>
         { u.mapGroups (fun h => if arrived.contains h.num then leave 0 h else h) with barriers := u.barriers.set o.barrier {} }).flagsSettled
           s.cur.team))) ∧
   ∀ (s : State) (r : BarrierRef) (t : Team), s.named = true → s.team? r.team = some t → t.barriers[r.barrier].count ≠ 0 →
     t.barriers[r.barrier].timeout ≠ 0 → t.frozen = false → t.barriers[r.barrier].complete = false →
     (∀ g ∈ t.groups, g.drained = false ∧ ∀ x ∈ g.slices, x.dbg = .none) →
     exec (.barrierTimeout r) s = .next ((s.updTeam r.team fun u =>
       let b := u.barriers[r.barrier]
       { u.mapGroups (fun h => if b.arrived.contains h.num then
           leave 1 (match h.live.head? with
             | some x => h.addFence h.liveMask x .ar 0x3F false
             | none => h) else h) with
         barriers := u.barriers.set r.barrier {} }).rendezvous r.team)) ∧
  ∀ (s : State) (o : BarArgs) (g : Group) (t : Team), s.inGroup g → s.team? s.cur.team = some t → s.undeferred = true →
    s.unmarked [] [.s o.d] = true →
    let b := t.barriers[o.barrier]
    (t.groups.length < o.count.val + 1 ∨ (b.count ≠ 0 ∧ b.count ≠ o.count.val + 1) ∨
      ∃ y ∈ g.live, y.gang ≠ s.cur.gang ∧ ∃ p, y.hold = .barrier p ∧ (p.barrier ≠ o.barrier ∨ p.count ≠ o.count)) →
    exec (.bar o) s = .next (s.raiseGang 0 { cls := .barrier, detail := BitVec.ofNat 64 o.barrier.val })

/-- R132, R180, R182, R232, R359, R371: what ends a gang's waiting otherwise. In a team in which nothing is about to end,
looking at what ends settles the flags and does no more. The accesses parked in a served range go on, but for those of a
stopped team; the spills and fills of a CALL or RET complete; an opportunity at which no gang of the sub-core is ready ends
its yields; and a round-robin turn falls to the ready gang that comes first in cyclic order after the turn pointer, every
other issue to the one that is first by priority, age and lane position. -/
def Obligations.WaitsEnd : Prop :=
  (∀ (s : State) (u : Nat), s.calm u = true → s.rendezvous u = s.flagsSettled u) ∧
  (∀ (s : State) (o : VaRef) (r : Fin 16 × Nat × Nat),
    s.replays.find? (fun r => r.1 == o.partition && (decide (r.2.1 ≤ o.va.toNat) && decide (o.va.toNat < r.2.1 + r.2.2))) = some r →
    let covers := fun (a : DWord) => r.2.1 ≤ a.toNat ∧ a.toNat < r.2.1 + r.2.2
    let s1 : State := { s with teams := s.teams.map fun t => if t.partition = r.1 ∧ t.frozen = false then t.mapGroups (fun g =>
            { g with
              slices := g.slices.map fun x => match x.hold with
                | .parked a => if covers a then { x with hold := .none, dbg := if x.dbg = .stepped then .stepping else x.dbg } else x
                | _ => x
              ops := g.ops.map fun p => match p.parked with
                | some a => if covers a then { p with parked := none } else p
                | none => p })
          else t }
    let left := s1.teams.any fun t => t.partition == r.1 && t.groups.any fun g =>
      g.slices.any (fun x => match x.hold with | .parked a => decide (covers a) | _ => false) ||
      g.ops.any fun p => match p.parked with | some a => decide (covers a) | none => false
    exec (.parkedAccessReplay o) s = .next (if left then s1 else { s1 with replays := s1.replays.filter (· != r) })) ∧
  (∀ (s : State) (r : GangRef), exec (.spillFillComplete r) s =
    .next (s.updTeam r.team fun t => if t.frozen then t else t.mapGang r.gang (fun _ x => if x.hold = .spilling then { x with hold := .none } else x))) ∧
  (∀ (s : State) (r : GangRef) (t : Team) (m : Group × Slice), s.team? r.team = some t → (t.members r.gang).head? = some m →
    let ended : State := { s with teams := s.teams.map fun u =>
      if u.die = t.die ∧ u.core = t.core ∧ u.frozen = false then u.mapGroups (fun g =>
        if g.place.sub = m.1.place.sub then g.mapSlices (fun x => { x with defer := 0 }) else g)
      else u }
    (s.ready t.die t.core m.1.place.sub = [] → exec (.yieldDeferralEnd r) s = .next ended) ∧
    (s.ready t.die t.core m.1.place.sub ≠ [] → exec (.yieldDeferralEnd r) s = .next s)) ∧
  ∀ (s : State) (r : SubRef) (cs : List Cand), let x := s.sub r.die r.core r.sub
    let lt := fun (a b : Nat × Nat) => a.1 < b.1 ∨ (a.1 = b.1 ∧ a.2 < b.2)
    ((x.due = true ∨ (x.n + 1) % 64 = 0) →
      exec (.roundRobinTurn r) s = .next (s.updSub r.die r.core r.sub fun x => { x with due := true }) ∧
      (cs ≠ [] → ∃ c ∈ cs, x.pick cs = some c ∧ ∀ c' ∈ cs,
        (lt x.ptr (c'.entry, c'.num) → lt x.ptr (c.entry, c.num)) ∧
        ((lt x.ptr (c.entry, c.num) ↔ lt x.ptr (c'.entry, c'.num)) → ¬ lt (c'.entry, c'.num) (c.entry, c.num)))) ∧
    (x.due = false → (x.n + 1) % 64 ≠ 0 → cs ≠ [] → ∃ c ∈ cs, x.pick cs = some c ∧ ∀ c' ∈ cs, c'.priority ≤ c.priority ∧
      (c'.priority = c.priority → c.age ≤ c'.age ∧ (c'.age = c.age → c.lanePos ≤ c'.lanePos)))

/-- R257, R289, R290, R292, R293: a copy, gather or expansion whose operands pass their checks and whose path has room joins
the path, in each slice of the gang in turn, and the gang goes on. A copy of no bytes has returned at once. R257, R289: the
checks of CPIN and CPOUT in their order, each a precise trap with its reason: length, alignment, address space, range; and a
path that has 63 operations makes the slice wait. -/
def Obligations.CopiesIssue : Prop :=
  (∀ (s : State) (o : SclR) (h : GatherArgs) (e : XpandArgs), s.named = true → s.begins = true →
     let issue := fun (i : Instr) (rd : List Reg) (path : Path) (ok : State → Team → Slice → Prop) (job : Group → Slice → Job)
         (empty : Slice → Bool) =>
       let go := fun (s1 : State) (_ : Team) (g : Group) (x : Slice) => s1.opIssued g x (job g x) path (empty x)
       s.unmarked rd [] = true → s.cleanScalars rd = true →
       s.whenInTurn go (fun s1 t g x => g.freshOp ∧ g.counter path < 63 ∧ ok s1 t x) → exec i s = .next (s.allInTurn go)
     let len := fun (x : Slice) => (x.getS o.b).toNat
     let lenOk := fun (x : Slice) => len x ≤ 2 ^ 28 ∧ len x % 4 = 0 ∧ (x.pair o.d).toNat % 4 = 0 ∧ (x.pair o.a).toNat % 4 = 0
     let w := fun (x : Slice) (i : Nat) => (x.getS (Fin.ofNat 64 (h.c.val + i))).toNat
     issue (.cpin o) (sPair o.d ++ sPair o.a ++ [.s o.b]) .copyIn
       (fun s1 t x => lenOk x ∧ s1.onChipRange t (x.pair o.d) (len x) = true ∧ (x.pair o.a).toNat < 2 ^ 57)
       (fun _ x => .copy { out := false, dst := x.pair o.d, src := x.pair o.a, len := len x }) (fun x => len x == 0) ∧
     issue (.cpout o) (sPair o.d ++ sPair o.a ++ [.s o.b]) .copyOut
       (fun s1 t x => lenOk x ∧ s1.onChipRange t (x.pair o.a) (len x) = true ∧ (x.pair o.d).toNat < 2 ^ 57)
       (fun _ x => .copy { out := true, dst := x.pair o.d, src := x.pair o.a, len := len x }) (fun x => len x == 0) ∧
     issue (.gather h) (sPair h.d ++ sPair h.a ++ sPair h.b ++ sRun h.c 3) .gather
       (fun s1 t x => 0 < w x 0 ∧ w x 0 ≤ 65536 ∧ 0 < w x 1 ∧ w x 1 ≤ 65536 ∧ w x 1 % 4 = 0 ∧ w x 2 % 4 = 0 ∧
         (∀ k ∈ [h.d, h.a, h.b], (x.pair k).toNat % 4 = 0) ∧ s1.onChipRange t (x.pair h.d) (w x 0 * w x 1) = true ∧
         (x.pair h.a).toNat < 2 ^ 57 ∧ (spaceOf (x.pair h.b)).1 = .shared ∧ s1.onChipRange t (x.pair h.b) (4 * w x 0) = true)
       (fun _ x => .gather { dst := x.pair h.d, src := x.pair h.a, index := x.pair h.b, rows := w x 0, rowLen := w x 1, stride := w x 2 })
       (fun _ => false) ∧
     issue (.xpand e) (sPair e.d ++ sPair e.a ++ [.s e.b] ++ sPair e.c) .copyIn
       (fun s1 t x => (x.pair e.d).toNat % 32 = 0 ∧ (x.pair e.a).toNat % 8 = 0 ∧
         s1.onChipRange t (x.pair e.d) (16384 * e.t.bytes) = true ∧ (x.pair e.a).toNat < 2 ^ 57)
       (fun g x => .xpand { t := e.t, rm := effRm e.rm g.mode, sat := e.sat || modeSat g.mode, ftz := flushes e.t g.mode,
                            dst := x.pair e.d, src := x.pair e.a, tile := (x.getS e.b).toNat, scales := x.pair e.c }) (fun _ => false)) ∧
  ∀ (s : State) (o : SclR) (g : Group) (x : Slice) (t : Team), s.alone g x → s.team? s.cur.team = some t →
    s.unmarked (sPair o.d ++ sPair o.a ++ [.s o.b]) [] = true → s.cleanScalars (sPair o.d ++ sPair o.a ++ [.s o.b]) = true →
    let n := (x.getS o.b).toNat
    let onChip := fun (a : DWord) => decide ((spaceOf a).1 = .shared) || decide ((spaceOf a).1 = .scratch)
    ∀ p ∈ ([(.cpin o, x.pair o.d, x.pair o.a, .copyIn), (.cpout o, x.pair o.a, x.pair o.d, .copyOut)] : List (Instr × DWord × DWord × Path)),
      let bad : List Bool := [decide (n > 2 ^ 28) || n % 4 != 0, p.2.1.toNat % 4 != 0 || p.2.2.1.toNat % 4 != 0,
        !onChip p.2.1 || decide ((spaceOf p.2.2.1).1 ≠ .global), decide (s.bound t (spaceOf p.2.1).1 < (spaceOf p.2.1).2 + n)]
      (∀ r : Fin 4, bad.findIdx? (·) = some r.val →
        exec p.1 s = .next (s.preciseTraps [(x, mkRec g x 0 { cls := .copyOperand, reason := r.val + 1 })])) ∧
      (bad.any (·) = false → 63 ≤ g.counter p.2.2.2 →
        exec p.1 s = .next (s.updSlice s.cur.team g.num x.num fun y => { y with hold := .pathFull p.2.2.2 }))

/-- R262, R263, R295 to R297, R376: a remote copy or put whose operands pass their checks joins the copy-out path, in each
slice of the gang in turn, with a landing that its source is still to fill and that comes after the landings which R262, R263
and R267 put before it. R297, R353: a PUT to a team that is not resident on the die, or is being saved there, traps with
class 0x17. R96, R294, R299, R319, R320: STREAM binds, in each slice of the gang in turn, the stream that its descriptor in
shared memory describes, takes a token and joins the stream path; RELAUNCH registers the 128 bytes at its address unless its
launch has registered a packet before. -/
def Obligations.SendsIssue : Prop :=
  (∀ (s : State) (o : RputArgs) (target : Slice → Option Nat), s.named = true → s.begins = true →
     let rd := sPair o.d ++ sPair o.a ++ [.s o.b] ++ sPair o.c
     s.unmarked rd [] = true → s.cleanScalars rd = true →
     let n := fun (x : Slice) => (x.getS o.b).toNat
     let dst := fun (x : Slice) => (x.pair o.d).toNat
     let obj := fun (x : Slice) => (x.pair o.c).toNat
     let die := fun (x : Slice) => dst x / 2 ^ 32 % 16
     let send := fun (put : Bool) (s1 : State) (t : Team) (g : Group) (x : Slice) =>
       let d : Fin 8 := if put then t.die else Fin.ofNat 8 (die x)
       let y : Landing := { id := s1.nextId, put := put, launch := t.launch, partition := t.partition, srcDie := t.die, dstDie := d,
                            inc := (s1.die d.val).inc, team := if put then target x else none, fromTeam := t.uid, fromGroup := g.num,
                            rel := decide (o.ord = .rel), after := [], filled := false, parts := [], object := obj x % 2 ^ 32,
                            admitted := false, held := false }
       let s2 := s1.opIssued g x (.rcopy { landing := s1.nextId, src := x.pair o.a, dst := dst x % 2 ^ 32,
                                           left := granulePieces (n x / 32 + 2) (dst x % 2 ^ 32) 0 (n x) }) .copyOut false
       let s3 : State := { s2 with nextId := s2.nextId + 1, landings := s2.landings ++
         [{ y with after := s1.landsAfter t g x y (dst x % 2 ^ 32) (n x) }] }
       s3.updOp t.uid g.num g.nextOp fun p => { p with landing := some y.id }
     (s.whenInTurn (send false) (fun s1 t g x => g.freshOp ∧ g.counter .copyOut < 63 ∧ s1.onChipRange t (x.pair o.a) (n x) = true ∧
         32 ≤ n x ∧ n x ≤ 2 ^ 24 ∧ n x % 32 = 0 ∧ dst x % 32 = 0 ∧ (x.pair o.a).toNat % 32 = 0 ∧ obj x % 16 = 0 ∧
         dst x < 2 ^ 36 ∧ obj x / 2 ^ 32 = die x ∧ die x < 8 ∧ die x ≠ t.die.val ∧ (s1.die (die x)).live = true ∧
         dst x % 2 ^ 32 + n x ≤ (s1.allocation t.partition.val (die x)).2 ∧
         obj x % 2 ^ 32 + 16 ≤ (s1.allocation t.partition.val (die x)).2) →
       exec (.rcopy o) s = .next (s.allInTurn (send false))) ∧
     (s.whenInTurn (send true) (fun s1 t g x => g.freshOp ∧ g.counter .copyOut < 63 ∧ s1.onChipRange t (x.pair o.a) (n x) = true ∧
         4 ≤ n x ∧ n x ≤ 65536 ∧ n x % 4 = 0 ∧ dst x % 4 = 0 ∧ (x.pair o.a).toNat % 4 = 0 ∧ obj x % 8 = 0 ∧
         obj x / 2 ^ 32 = dst x / 2 ^ 32 ∧
         ((dst x < 2 ^ 32 ∧ target x = none ∧ dst x + n x ≤ (s1.allocation t.partition.val t.die.val).2 ∧
             obj x + 8 ≤ (s1.allocation t.partition.val t.die.val).2) ∨
           ∃ y, dst x / 2 ^ 56 = 128 ∧ s1.teams.find? (fun y => y.launch == t.launch && y.die == t.die &&
               y.lin == dst x / 2 ^ 32 % 2 ^ 24 && !y.frozen) = some y ∧ target x = some y.uid ∧
             dst x % 2 ^ 32 + n x ≤ s1.bound y .shared ∧ obj x % 2 ^ 32 + 8 ≤ s1.bound y .shared)) →
       exec (.put o) s = .next (s.allInTurn (send true))) ∧
     ∀ (t : Team) (g : Group) (x : Slice) (y : Landing) (k m c : Nat) (a : Op) (l : Landing), k ∈ g.priorTo (g.gangMask x.gang) →
       g.op? k = some a → a.landing = some l.id → s.landing? l.id = some l →
       (y.rel = true ∨ spansMeet (s.landingAll a l) [s.landingSpan y c m, s.landingSpan y y.object y.objectBytes] = true) →
       l.id ∈ s.landsAfter t g x y c m) ∧
  (∀ (s : State) (o : RputArgs) (g : Group) (x : Slice) (t : Team), s.alone g x → s.team? s.cur.team = some t →
     let rd := sPair o.d ++ sPair o.a ++ [.s o.b] ++ sPair o.c
     s.unmarked rd [] = true → s.cleanScalars rd = true →
     let n := (x.getS o.b).toNat
     let dst := (x.pair o.d).toNat
     4 ≤ n → n ≤ 65536 → n % 4 = 0 → dst % 4 = 0 → (x.pair o.a).toNat % 4 = 0 → (x.pair o.c).toNat % 8 = 0 →
     (x.pair o.c).toNat / 2 ^ 32 = dst / 2 ^ 32 → dst / 2 ^ 56 = 128 → s.onChipRange t (x.pair o.a) n = true →
     (∀ y ∈ s.teams, y.launch = t.launch → y.die = t.die → y.lin = dst / 2 ^ 32 % 2 ^ 24 → y.frozen = true) →
     exec (.put o) s = .next (s.preciseTraps [(x, mkRec g x 0 { cls := .putTarget, detail := x.pair o.d })])) ∧
  ∀ (s : State) (o : SReg), s.named = true → s.begins = true → s.unmarked (sPair o) [] = true → s.cleanScalars (sPair o) = true →
    let field := fun (s1 : State) (t : Team) (g : Group) (x : Slice) (i n : Nat) =>
      fromLE ((((s1.readChip t g (spaceOf (x.pair o)).1 (spaceOf (x.pair o)).2 32).map (·.1)).drop i).take n)
    let bind := fun (s1 : State) (t : Team) (g : Group) (x : Slice) =>
      let le := field s1 t g x
      let st : Stream := { addr := x.pair o, group := g.num, op := g.nextOp, region := BitVec.ofNat 64 (le 0 8),
                           scales := BitVec.ofNat 64 (le 8 8), first := le 16 4, count := le 20 4, stride := le 24 4, claimed := 0,
                           ahead := [], delivered := 0, fault := none }
      (s1.opIssued g x (.stream (x.pair o)) .stream false).updTeam t.uid fun t =>
        { t with streams := t.streams ++ [st], tokens := t.tokens ++ [{ group := g.num, rflag := x.rflag, sflag := x.sflag }] }
    (s.whenInTurn bind (fun s1 t g x =>
        let le := field s1 t g x
        (x.pair o).toNat % 32 = 0 ∧ (spaceOf (x.pair o)).1 = .shared ∧ s1.onChipRange t (x.pair o) 32 = true ∧
        (s1.readChip t g (spaceOf (x.pair o)).1 (spaceOf (x.pair o)).2 32).any (·.2) = false ∧
        s1.blocked t g (g.priorTo (g.gangMask x.gang)) { slice := x.num, cls := 0, write := false, spans := [s1.chipSpan t (x.pair o) 32] } = false ∧
        g.freshOp ∧ g.counter .stream < 63 ∧ 0 < le 20 4 ∧ le 20 4 ≤ 65536 ∧ le 0 8 % 8 = 0 ∧ le 0 8 < 2 ^ 57 ∧ le 8 8 % 128 = 0 ∧
        le 24 4 % 128 = 0 ∧ le 28 4 = 0 ∧ t.stream? (x.pair o) = none ∧ t.tokens.length < s1.declared t) →
      exec (.stream o) s = .next (s.allInTurn bind)) ∧
    ∀ (g : Group) (x : Slice) (t : Team) (bs : List (Byte × Bool)), s.members = [(g, x)] → s.team? s.cur.team = some t →
      let a := (x.pair o).toNat
      a % 64 = 0 → a + 128 ≤ 2 ^ 57 → s.readGlobal t.die.val t.partition.val .read a 128 = .ok bs → bs.any (·.2) = false →
      s.blocked t g (g.priorTo (g.gangMask x.gang)) { slice := x.num, cls := 5, write := false, spans := s.globalSpans t .read a 128 } = false →
      exec (.relaunch o) s = .next (((s.visitSpans t.die.val (s.globalSpans t .read a 128)).updLaunch t.launch fun l =>
        { l with registered := some (match l.registered with | some b => b | none => bs.map (·.1)) }).updSlice
          s.cur.team g.num x.num (·.done))

/-- R255 to R257, R259, R260, R267, R290 to R293: a movement of an engine's operation. A chunk of a copy, gather or expansion
is written to its place with the bytes that its source holds, as the engine sees them, with their poison; a copy opens its
next page, a gather a row, an expansion its tile, and their bytes stand in chunks; a piece of the source of a remote copy or
put is read. What R267 holds back stays. The operation returns once nothing of it is left, and a page that faults ends it or
parks it. R255, R259, R290, R293: the bytes that an engine moves, cut into chunks: each lies in one 32-byte granule of the
destination, they follow one another there without a gap from its start, and hold the bytes of the source in order. The
model's own choices in it: log 5. -/
def Obligations.CopiesReturn : Prop :=
  (∀ (s : State) (r : PartRef) (t : Team) (g : Group) (p : Op), s.named = true → s.calm r.team = true →
     s.team? r.team = some t → t.group? r.group = some g → g.op? r.op = some p → t.frozen = false → p.returned = false →
     p.parked = none → (∀ x ∈ g.slices, ∀ q th, x.hold ≠ .path q th ∧ x.hold ≠ .pathFull q) →
     let job := fun (s1 : State) (j : Job) => s1.updOp r.team r.group r.op fun q => { q with job := j }
     let back := fun (s1 : State) (j : Job) (f : Option FaultInfo) => (s1.updGroup r.team r.group fun h =>
       ({ h with ops := h.ops.map fun q => if q.id = r.op then { q with job := j, returned := true, fault := f, early := [] } else q } : Group).retire)
     let goes := fun (s1 : State) (j : Job) => Host.Outcome.next ((match j.ending with
       | some (.fault f) => back s1 j (some f)
       | some _ => back s1 j none
       | none => job s1 j).flagsSettled r.team)
     let sees := s.seenBy t g p
     let ordered := fun (cls : Nat) (write : Bool) (spans : List Span) =>
       s.blocked t g p.prior { slice := p.slice, cls := cls, write := write, spans := spans } = false
     (∀ j c, (p.job = .copy j ∧ j.todo[r.pick]? = some c) →
       let s1 := (match c.src with
         | .mem ps => ps.foldl (fun (s : State) p => s.visits t.die.val p) s
         | .data _ => s).visits t.die.val (c.dst, c.n)
       (ordered 1 true (s.chunkSpans t c) → exec (.copyReturn r) s =
         goes (s1.writeSpot r.team r.group (c.src.read sees.1 sees.2.1 sees.2.2) c.dst) (.copy { j with todo := j.todo.eraseIdx r.pick })) ∧
       (¬ ordered 1 true (s.chunkSpans t c) → exec (.copyReturn r) s = .next (s.flagsSettled r.team))) ∧
     (∀ j c, (p.job = .gather j ∧ j.todo[r.pick]? = some c) → ordered 1 true (s.chunkSpans t c) → exec (.copyReturn r) s =
       goes ((match c.src with
         | .mem ps => ps.foldl (fun (s : State) p => s.visits t.die.val p) s
         | .data _ => s).visits t.die.val (c.dst, c.n) |>.writeSpot r.team r.group (c.src.read sees.1 sees.2.1 sees.2.2) c.dst)
         (.gather { j with todo := j.todo.eraseIdx r.pick })) ∧
     (∀ j cs x bs, p.job = .xpand j → j.todo = some cs → cs[r.pick]? = some { dst := x, n := bs.length, src := .data bs } →
       ordered 1 true [s.span t bs.length x] → exec (.copyReturn r) s =
         goes ((s.visits t.die.val (x, bs.length)).writeSpot r.team r.group bs x) (.xpand { j with todo := some (cs.eraseIdx r.pick) })) ∧
     (∀ j, p.job = .copy j → j.todo.length ≤ r.pick → j.stop = none → j.next < j.len →
       let va := (if j.out then j.dst else j.src).toNat + j.next
       let page := s.openPage t.die.val t.partition.val (if j.out then .write else .read) va (min (j.len - j.next) (2 ^ 57 - va))
       (va < 2 ^ 57 → (∀ ps, page = .ok ps →
           let m := j.next + (ps.map (·.2)).sum
           let n := max j.formed (if m = j.len then m else m - (j.dst.toNat + m) % 32)
           let held := j.held ++ ps.map fun p => (Spot.main p.1, p.2)
           let chip := [((chipSpot (if j.out then j.src else j.dst)).shift j.formed, n - j.formed)]
           exec (.copyReturn r) s = goes s (.copy { j with
             next := m, formed := n, held := (splitPlaces (n - j.formed) held).2,
             todo := j.todo ++ chunksFor (if j.out then held else chip) (if j.out then chip else held) (n - j.formed) })) ∧
         (∀ f, page = .error f → f.parks = false → ∃ k, k.stop = some (.fault (f.info (BitVec.ofNat 64 va))) ∧ k.formed = j.next ∧
           exec (.copyReturn r) s = goes s (.copy k)) ∧
         (page = .error .page → g.trapped = false → ∃ s1 q, exec (.copyReturn r) s = .next s1 ∧
           (s1.group? r.team r.group).bind (·.op? r.op) = some q ∧ q = { p with parked := some (BitVec.ofNat 64 va) } ∧
           ∀ l, s.launch? t.launch = some l → (s1.part t.partition.val).faultSeq = (s.part t.partition.val).faultSeq + 1)) ∧
       (2 ^ 57 ≤ va → ∃ k, k.stop = some (.fault { cls := .address, detail := BitVec.ofNat 64 va }) ∧ k.formed = j.next ∧
         exec (.copyReturn r) s = goes s (.copy k))) ∧
     (∀ j i, p.job = .gather j → j.todo.length ≤ r.pick → j.stop = none → j.left[(r.pick - j.todo.length) % max 1 j.left.length]? = some i →
       let at' := (chipSpot j.index).shift (4 * i)
       let index := sees.1.readSpot sees.2.1 sees.2.2 4 at'
       let va := j.src.toNat + fromLE (index.map (·.1)) * j.stride
       ordered 1 false [s.span t 4 at'] → index.any (·.2) = false → va + j.rowLen ≤ 2 ^ 57 → ∀ ts,
       sees.1.runs t.die.val t.partition.val .read (pageFuel va j.rowLen) va j.rowLen = (ts, none) →
       exec (.copyReturn r) s = goes s (.gather { j with
         left := j.left.filter (· != i)
         todo := j.todo ++ chunksFor [((chipSpot j.dst).shift (i * j.rowLen), j.rowLen)] (ts.map fun t => (Spot.main t.1, t.2)) j.rowLen })) ∧
     (∀ j x, p.job = .xpand j → j.todo = none →
       let spans := s.tileSpans t j.src.toNat j.tile j.scales
       ordered 1 false spans → sees.1.readTile sees.2.1 sees.2.2 j.src.toNat j.tile j.scales = .ok x →
       let bs := ((x.codes.zip x.scales).flatMap fun b => b.1.flatMap fun c => toLE j.t.bytes (xpandElem j.t j.rm j.sat j.ftz (c, b.2))).map
         fun b => (b, false)
       exec (.copyReturn r) s = goes (s.visitSpans t.die.val spans)
         (.xpand { j with todo := some (dataChunks (chipSpot j.dst) (bs.length / 32 + 2) bs) })) ∧
     ∀ j k, p.job = .rcopy j → j.left[r.pick % max 1 j.left.length]? = some k →
       let a := j.src + BitVec.ofNat 64 k.1
       ordered 2 false [s.chipSpan t a k.2] →
       let bs := sees.1.readChip sees.2.1 sees.2.2 (spaceOf a).1 (spaceOf a).2 k.2
       let left := j.left.filter (· != k)
       let fill := fun (l : Landing) => if l.id = j.landing then { l with parts := l.parts ++ [(j.dst + k.1, bs)], filled := left.isEmpty } else l
       exec (.copyReturn r) s = goes { s with landings := s.landings.map fill } (.rcopy { j with left := left })) ∧
  ∀ (s : State) (t : Team) (g : Group) (x : Spot) (src : List (Spot × Nat)) (bs : List (Byte × Bool)) (n : Nat),
    let whole := fun (cs : List Chunk) (n : Nat) =>
      (∀ c ∈ cs, 0 < c.n ∧ c.dst.offset % 32 + c.n ≤ 32) ∧ (cs.map (·.n)).sum = n ∧
      ∀ i c, cs[i]? = some c → c.dst = x.shift ((cs.take i).map (·.n)).sum
    (0 < n → n ≤ (src.map (·.2)).sum → whole (chunksFor [(x, n)] src n) n ∧
      (chunksFor [(x, n)] src n).flatMap (fun c => c.src.read s t g) = (src.flatMap fun p => s.readSpot t g p.2 p.1).take n) ∧
    whole (dataChunks x (bs.length / 32 + 2) bs) bs.length ∧
    (dataChunks x (bs.length / 32 + 2) bs).flatMap (fun c => c.src.read s t g) = bs

/-- R262, R263: the bytes of a landing that stand at hand from an offset on without a gap, as many granules of them as are
asked for. R262: a run of granules of a remote copy lands in the partition's allocation on the destination die, and its
update follows: the pending count falls by the bytes that have landed, the phase flips when it reaches 0, a run past it is
flagged, and the last run counts the copy. R263, R297, R376: bytes of a put land, and once all have its counter rises by 1:
in the scratchpad, or in the shared memory of a team that is resident on the die, which admits one put at a time; a put to a
team that is there no longer is counted instead; one to a saved team is held, and delivered once the team runs. The model's
own choices in it: log 1, log 5. -/
def Obligations.LandingsArrive : Prop :=
  (∀ (n off : Nat) (ps : List (Nat × List (Byte × Bool))),
     takeRun 0 off ps = ([], ps) ∧ (ps.find? (fun p => p.1 == off) = none → takeRun n off ps = ([], ps)) ∧
     ∀ p, ps.find? (fun p => p.1 == off) = some p →
       takeRun (n + 1) off ps = (p.2 ++ (takeRun n (off + p.2.length) (ps.filter (·.1 != off))).1,
         (takeRun n (off + p.2.length) (ps.filter (·.1 != off))).2)) ∧
  (∀ (s : State) (o : LandingArgs) (y : Landing), s.landing? o.landing = some y → y.put = false → 0 < o.granules →
     (s.die y.dstDie.val).inc = y.inc →
     let run := takeRun o.granules o.start y.parts
     let n := run.1.length
     run.1 ≠ [] → s.landingDue y o.start n = true →
     let base := mainAddr y.dstDie.val (s.allocation y.partition.val y.dstDie.val).1
     let s1 := (s.msg y.srcDie.val y.dstDie.val).writeMain none (base + o.start) run.1
     let word := fun (i : Nat) => fromLE ((s1.readMain none (base + y.object + i) 8).map (·.1))
     let pending := word 8
     ∀ phase count, phase ≤ 1 → count < 2 ^ 32 → word 0 = phase * 2 ^ 63 + count →
     let last := y.filled && run.2.isEmpty
     let w := (if pending = 0 ∨ n < pending then phase else 1 - phase) * 2 ^ 63 + (if pending < n then 2 ^ 62 else 0) +
       (if last then (count + 1) % 2 ^ 32 else count)
     let s2 := s1.writeMain none (base + y.object) ((toLE 8 w ++ toLE 8 (pending - n)).map fun b => (b, false))
     let move := fun (z : Landing) => if z.id = y.id then { z with parts := run.2 } else z
     let free := fun (q : Op) => if q.landing = some y.id then { q with landing := none } else q
     exec (.rcopyLanding o) s = .next ((if last then
         { s2 with landings := s2.landings.filter (·.id != y.id) }.updGroup y.fromTeam y.fromGroup fun g =>
           ({ g with ops := g.ops.map free } : Group).retire
       else { s2 with landings := s2.landings.map move }).rendezvous y.fromTeam)) ∧
  ∀ (s : State) (o : LandingArgs) (y : Landing), s.landing? o.landing = some y → y.id = o.landing → y.put = true →
    let free := fun (q : Op) => if q.landing = some y.id then { q with landing := none } else q
    let gone := fun (s1 : State) => ({ s1 with landings := s1.landings.filter (·.id != y.id) }.updGroup y.fromTeam y.fromGroup fun g =>
      ({ g with ops := g.ops.map free } : Group).retire)
    let base := mainAddr y.dstDie.val (s.allocation y.partition.val y.dstDie.val).1
    let ends := fun (i : Instr) (s1 : State) => exec i s = .next (s1.rendezvous y.fromTeam)
    let run := takeRun o.granules o.start y.parts
    let counts := y.filled && y.parts.isEmpty
    let puts := fun (i : Instr) =>
      (y.team = none → (s.die y.dstDie.val).inc = y.inc →
        (counts = false → run.1 ≠ [] → s.landingDue y o.start run.1.length = true →
          let move := fun (z : Landing) => if z.id = y.id then { z with parts := run.2 } else z
          let s1 := s.writeMain none (base + o.start) run.1
          ends i { s1 with landings := s1.landings.map move }) ∧
        (counts = true → s.landingDue y y.object 8 = true →
          let c := fromLE ((s.readMain none (base + y.object) 8).map (·.1)) + 1
          ends i (gone (s.writeMain none (base + y.object) ((toLE 8 c).map fun b => (b, false)))))) ∧
      ∀ uid, y.team = some uid → s.saved uid = false →
        (∀ t, s.team? uid = some t → t.die = y.dstDie → s.tileBusy t y = false → s.landingDue y o.start (32 * o.granules) = true →
          (counts = false → run.1 ≠ [] → s.landingDue { y with admitted := true, held := false } o.start run.1.length = true →
            let move := fun (z : Landing) => if z.id = y.id then { z with parts := run.2, admitted := true, held := false } else z
            ends i { s.updTeam uid (fun t => { t with
                shared := t.shared.write o.start (run.1.map (·.1)), sharedPoison := poisonAfter t.sharedPoison o.start run.1 }) with
              landings := s.landings.map move }) ∧
          (counts = true → s.landingDue { y with admitted := true, held := false } y.object 8 = true →
            ends i (gone (s.updTeam uid fun u =>
              let c := toLE 8 (fromLE (t.shared.read y.object 8) + 1)
              { u with shared := u.shared.write y.object c,
                       sharedPoison := poisonAfter u.sharedPoison y.object (c.map fun b => (b, false)) })))) ∧
        (s.team? uid = none → ends i (gone (s.updDie y.dstDie.val fun d => { d with cPuts := d.cPuts + 1 })))
    (y.held = false → puts (.putLanding o) ∧
      ∀ uid, y.team = some uid → s.saved uid = true → y.admitted = false → ends (.putLanding o)
        (let hold := fun (z : Landing) => if z.id = y.id then { z with held := true } else z
         { s with landings := s.landings.map hold })) ∧
    (y.held = true → (∀ uid, y.team = some uid → s.saved uid = false) → puts (.heldPutDelivery o))

/-- R303, R353: VATSET writes the vat register of each group of the gang from the gang's highest-numbered slice of it, and a
change releases the keep latch; a value that R303 refuses is a precise trap of class 0x0E and reason 0x1 in a gang of one
slice. R303, R304, R318, R320, R326 to R329: a gang of one group issues a matrix instruction. Its slices wait with their A
registers held and an MMV's accumulators pending; when it is the last of its vat and every check passes, the slices of the
groups go past the instruction, each with a part of the operation that keeps its flags, the owning group takes a token, the
latch and the operation, and an MMV claims its tile. R304, R324, R354: a vat whose instruction fails a check of its
completion traps in every arrived group, with a record of its own that names the lane concerned in the group that holds it
and no slice in the others; nothing else of the instruction happens. -/
def Obligations.VatsStart : Prop :=
  (∀ (s : State) (o : SReg) (t : Team), s.team? s.cur.team = some t → s.named = true → s.unmarked [.s o] [] = true → s.cleanScalars [.s o] = true →
     let v := fun (z : Slice) => (z.getS o).extractLsb' 0 16
     let legal := fun (g : Group) (z : Slice) =>
       let size := ((List.range 16).filter fun i => (v z).getLsbD i).length
       2 ≤ size ∧ size ≤ 6 ∧ (v z).getLsbD g.num = true ∧ (v z).toNat < 2 ^ t.groups.length
     ((∀ g ∈ t.groups, ∀ z, (g.slices.filter (·.inGang s.cur.gang)).getLast? = some z → legal g z) →
       exec (.vatset o) s = .next (s.updTeam s.cur.team (·.mapGroups fun g => match (g.slices.filter (·.inGang s.cur.gang)).getLast? with
         | none => g
         | some z => { g with vat := v z, keep := if v z = g.vat then g.keep else none,
                              slices := g.slices.map fun x => if x.inGang s.cur.gang then x.done else x }))) ∧
     ∀ g x, s.alone g x → ¬ legal g x →
       exec (.vatset o) s = .next (s.preciseTraps [(x, mkRec g x 0 { cls := .vat, reason := 1 })])) ∧
  (∀ (s : State) (i : Instr) (o : MatArgs) (g : Group) (t t1 : Team), s.inGroup g → s.team? s.cur.team = some t → matArgs i = some o →
     (o.kind = .mmas → t.die.val < 4) → s.undeferred = true →
     (∀ m ∈ s.members, m.2.ownInstr i = i ∧ m.2.dependence g.budget (matReads t g m.2 o) (matWrites g o) = none) →
     s.calmBut s.cur.team (fun h => match h with | .vat _ => true | _ => false) = true →
     let enter := fun (y : Slice) =>
       { (y.mark g.budget false y.sflag (matARegs t g o)).mark g.budget true y.rflag (matWrites g o) with hold := .vat i }
     let s1 := s.updGroup s.cur.team g.num fun h =>
       { h with keepSeen := (t.ownerOf g).keep.isSome, slices := h.slices.map fun y => if y.inGang s.cur.gang then enter y else y }
     let kept := fun (n : Nat) (j : MatJob) =>
       { kind := o.kind, typeA := j.typeA, blenA := j.blenA, groups := n, vectors := o.nv, active := j.active, rows := j.rows : Keep }
     s1.team? s.cur.team = some t1 →
     ((∀ h ∈ t1.groups, h.arrived = true → t1.arrivalFault h = none ∧ ∃ k ∈ t1.groups, h.vat.getLsbD k.num = true ∧ k.arrived = false) →
       exec i s = .next (s1.flagsSettled s.cur.team)) ∧
     ∀ gs j, g.vat ≠ 0 → t1.vatFull gs g.vat i → vatRoom gs = true → s1.judgeVat t1 gs o = .go j →
       ∃ t2 u owner x0, exec i s = .next t2 ∧ gs.head? = some owner ∧ owner.slices.head? = some x0 ∧ t2.team? s.cur.team = some u ∧
         u.tokens = t.tokens ++ [{ group := owner.num, rflag := x0.rflag, sflag := x0.sflag }] ∧
         u.streams = t.streams.map (fun x => if o.kind = .mmv ∧ x.group = j.producer.1 ∧ x.op = j.producer.2
           then { x with claimed := x.claimed + 1 } else x) ∧
         (∃ h p, u.group? owner.num = some h ∧ p ∈ h.ops ∧ p.job = .matrix j ∧ p.returned = false ∧ p.lateRead = owner.keep.isNone ∧
           p.path = (if o.kind = .mmv then some Path.stream else none) ∧
           h.keep = (if o.k then some (owner.keep.getD (kept gs.length j)) else none) ∧
           ∀ k ∈ gs, ∀ y ∈ k.slices, y.exited = false → ∃ z q h1, t2.sliceAt s.cur.team k.num y.num = some z ∧
             z = { y.done with f := z.f } ∧ u.group? k.num = some h1 ∧ q ∈ h1.ops ∧ q.slice = y.num ∧ q.rflag = y.rflag ∧
             q.sflag = y.sflag ∧ q.returned = false ∧ q.lateRead = owner.keep.isNone ∧
             (q.job = .vatPart owner.num p.id ∨ (k.num = owner.num ∧ q = p))) ∧ s.SameBytes t2) ∧
  ∀ (s : State) (i : Instr) (o : MatArgs) (g : Group) (t t1 : Team) (gs : List Group) (f : VatFault), s.inGroup g →
    s.team? s.cur.team = some t → matArgs i = some o → (o.kind = .mmas → t.die.val < 4) → s.undeferred = true →
    (∀ m ∈ s.members, m.2.ownInstr i = i ∧ m.2.dependence g.budget (matReads t g m.2 o) (matWrites g o) = none) →
    s.calmBut s.cur.team (fun h => match h with | .vat _ => true | _ => false) = true →
    let s1 := s.updGroup s.cur.team g.num fun h =>
      let ys := h.slices.map fun y => if y.inGang s.cur.gang then y.enterVat t g o i else y
      { h with keepSeen := (t.ownerOf g).keep.isSome, slices := ys }
    s1.team? s.cur.team = some t1 → g.vat ≠ 0 → t1.vatFull gs g.vat i → vatRoom gs = true → s1.judgeVat t1 gs o = .fault f →
    let note := fun (h : Group) (k : Nat) => h.live.head?.map fun (y : Slice) =>
      let r := mkRec h y (y.ownPlanes.headD 0) f.info
      if f.lane / 32 = k then
        { r with slice := BitVec.ofNat 8 (f.lane % 32 / 4), lane := BitVec.ofNat 8 (f.lane % 32), laneMask := BitVec.ofNat 32 (2 ^ (f.lane % 32)) }
      else { r with slice := 0xFF }
    exec i s = .next (((gs.zipIdx.foldl (fun (s : State) (p : Group × Nat) => match note p.1 p.2 with
      | some r => s.trapSlices s.cur.team r (p.1.live.map (·.num))
      | none => s) s1).meets s.cur.team 1023).flagsSettled s.cur.team)

/-- R308, R310 to R314, R320, R322 to R325: what a vat's operation is made of, once its checks have passed: the format block
and the pair of slice 0 of the owning group, the active lanes, their A registers or the latch, their accumulator addresses,
the claimed tile; and the checks themselves. R44, R55 to R59, R310 to R317, R326, R328: how the matrix units form a sum.
Elements and scales have the values of their tables; a chunk is summed exactly, scaled and rounded once to .F32; chunks are
added in ascending order, each addition rounded once; a granule of an accumulator row holds the sums of eight columns, and a
delivered tile gives each active lane of an MMV the sums of its rows. -/
def Obligations.MatrixSums : Prop :=
  ((∀ (s : State) (t : Team) (gs : List Group) (o : MatArgs) (j : MatJob), s.judgeVat t gs o = .go j →
     ∃ owner x0, gs.head? = some owner ∧ owner.slices.head? = some x0 ∧
       let w := fun (k : Nat) => x0.getS (Fin.ofNat 64 (o.fb.val + k))
       let pair : DWord := x0.getS (up o.sbm) ++ x0.getS o.sbm
       let lanes := gs.zipIdx.flatMap fun h => h.1.slices.flatMap fun x => lanes4.map fun k => (32 * h.2 + 4 * x.num + k.val, h.1, x, k)
       let act := lanes.filter fun l => !l.2.2.1.exited && l.2.2.1.em.getLsbD l.2.2.2.val &&
         ((l.2.2.1.lane l.2.2.2).pred o.g.pred != o.g.neg)
       let get := fun (l : Nat × Group × Slice × Fin 4) (k : Nat) => (l.2.2.1.lane l.2.2.2).get ((l.2.2.1.wb + k % 64) % l.2.1.budget)
       j.kind = o.kind ∧ j.members = gs.map (·.num) ∧ j.typeA = ETy.ofCode ((w 0).extractLsb' 0 4).toNat ∧
       j.typeB = ETy.ofCode ((w 0).extractLsb' 8 4).toNat ∧ j.blenA = ((w 0).extractLsb' 20 2).toNat ∧ j.blenB = ((w 0).extractLsb' 22 2).toNat ∧
       j.active = act.map (·.1) ∧ j.cols = o.cols ∧ j.dst = o.d ∧ j.stream = pair ∧ t.tokens.length < s.declared t ∧
       formatFault (if t.die.val < 4 then 6 else 5) gs.length o (x0.fmtb o.fb) = none ∧
       x0.scalarPoison (sRun o.fb 4 ++ sPair o.sbm) = false ∧
       (∀ k, owner.keep = some k → j.rows = k.rows ∧ k.kind = o.kind ∧ k.typeA = j.typeA ∧ k.blenA = j.blenA ∧ k.groups = gs.length ∧ k.vectors = o.nv) ∧
       (∀ h ∈ gs, h.keepSeen = owner.keep.isSome) ∧
       (o.kind ≠ .mmv → j.addrB = pair ∧ s.operandOk t pair 64 (64 * o.cols) = true ∧
         j.acc = act.map (fun l => (l.1, (get l (o.d.val + 1) ++ get l o.d.val : DWord))) ∧
         (∀ a ∈ j.acc, s.operandOk t a.2 32 (4 * o.cols) = true) ∧
         (∀ n q, (n, q) ∈ j.todo ↔ n < j.acc.length ∧ q < o.cols / 8) ∧ j.todo.Nodup ∧
         (∀ (ty : ETy) (a : DWord) (l : Word), (ty, a, l) ∈ [(j.typeA, j.scaleA, w 1), (j.typeB, j.scaleB, w 2)] → (ty = .q4 ∨ ty = .mx4) →
           spaceOf a = (if l.getLsbD 31 then .scratch else .shared, (l.extractLsb' 0 31).toNat)) ∧
         (owner.keep = none → o.kind = .mma → j.rows = act.map fun l =>
           (l.1, (List.range 16).flatMap fun k => toLE 4 (get l (o.a.val + k)).toNat)) ∧
         (owner.keep = none → o.kind = .mmas → ∀ l ∈ act, ∃ r, (l.1, r) ∈ j.rows ∧
           widenRow j.typeA ((List.range (8 + 16 / j.typeA.bits)).flatMap fun k => toLE 4 (get l (o.a.val + k)).toNat) = some r)) ∧
       (o.kind = .mmv → (∃ x ∈ t.streams, x.addr = pair ∧ x.claimed < x.count ∧ j.tile = x.claimed ∧ j.producer = (x.group, x.op)) ∧
         (owner.keep = none → j.rows = (List.range o.nv).map fun v =>
           let n := if j.typeA.bits = 16 then 2 else 1
           (v, (List.range n).flatMap fun r => owner.slices.flatMap fun x => lanes4.flatMap fun k =>
             toLE 4 (get (0, owner, x, k) (o.a.val + n * v + r)).toNat)))) ∧
   ∀ (gen groups : Nat) (o : MatArgs) (f : Fmtb),
     let a := ETy.ofCode (f.w0.extractLsb' 0 4).toNat
     let b := ETy.ofCode (f.w0.extractLsb' 8 4).toNat
     let mat : List ETy := [.f16, .bf16, .e4m3, .e5m2, .q4, .mx4]
     let block : List ETy := [.q4, .mx4]
     let blen := fun (k : Nat) => (f.w0.extractLsb' k 2).toNat
     let isV := o.kind = .mmv
     let na := (if a.bits = 16 then 2 else 1) * o.nv
     let nd := (if groups < 4 then 2 else 1) * o.nv
     let bad : List (Nat × Prop) :=
       [(1, a ∉ mat ∨ b ∉ mat ∨ (isV ∧ (a ∈ block ∨ b ≠ .q4))), (2, ¬ isV ∧ a.bits ≠ b.bits),
        (3, blen 20 = 3 ∨ (blen 20 ≠ 0 ∧ a ≠ .q4) ∨ blen 22 = 3 ∨ (blen 22 ≠ 0 ∧ (b ≠ .q4 ∨ isV))),
        (4, f.w0.extractLsb' 4 4 ≠ 0 ∨ f.w0.extractLsb' 12 8 ≠ 0 ∨ f.w0.extractLsb' 24 8 ≠ 0 ∨ f.w3 ≠ 0 ∨
          (f.locA ≠ 0 ∧ (isV ∨ a ∉ block)) ∨ (f.locB ≠ 0 ∧ (isV ∨ b ∉ block))),
        (7, isV ∧ (o.a.val + na > 64 ∨ o.d.val + nd > 64 ∨ (o.a.val < o.d.val + nd ∧ o.d.val < o.a.val + na)))]
     (∀ (n : Nat) (p : Nat × Prop), bad[n]? = some p → p.2 → (∀ (m : Nat) (q : Nat × Prop), m < n → bad[m]? = some q → ¬ q.2) →
       formatFault gen groups o f = some { cls := .matrixOperand, reason := p.1 }) ∧
     ((∀ p ∈ bad, ¬ p.2) → formatFault gen groups o f =
       if gen = 5 ∧ (if isV then a.bits ≠ 16 else a ≠ b) then
         some { cls := .unimplementedCombination, detail := BitVec.ofNat 64 ((f.w0.extractLsb' 0 4).toNat + 16 * (f.w0.extractLsb' 8 4).toNat) }
       else none)) ∧
  (∀ (code scale : Nat), code < 16 →
    let table : List (List Rat) := [[0, 1, 2, 3, 4, 5, 6, 7, -8, -7, -6, -5, -4, -3, -2, -1],
      [0, 1/2, 1, 3/2, 2, 3, 4, 6, 0, -1/2, -1, -3/2, -2, -3, -4, -6], [0, 1, 2, 4, 8, 16, 32, 64, 0, -1, -2, -4, -8, -16, -32, -64],
      [0, 1, 2, 3, 4, 5, 6, 8, 0, -1, -2, -3, -4, -5, -6, -8]]
    (elemVal .q4 scale code).isFin = true ∧ (elemVal .mx4 scale code).isFin = true ∧
    (∀ ty, ty < 4 → scale / 64 = ty → (elemVal .q4 scale code).rat = (table.getD ty []).getD code 0) ∧
    (elemVal .mx4 scale code).rat = (table.getD 1 []).getD code 0 ∧
    q4Scale scale = (if scale % 64 = 63 then none else some ((scale % 64 : Nat) - 32)) ∧
    mx4Scale scale = if scale = 0xFF then none else some ((scale : Int) - 127)) ∧
  (∀ (xs ys : List FVal) (k : Int), xs.length = ys.length →
    let ps := xs.zip ys
    let bad := ∃ p ∈ ps, p.1.isNan = true ∨ p.2.isNan = true ∨ (p.1.isInf = true ∧ p.2.isZero = true) ∨ (p.1.isZero = true ∧ p.2.isInf = true)
    let inf := fun (n : Bool) => ∃ p ∈ ps, (p.1.isInf = true ∨ p.2.isInf = true) ∧ (p.1.neg != p.2.neg) = n
    let sum := ((ps.map fun p => p.1.rat * p.2.rat).foldl (· + ·) 0) * (2 : Rat) ^ k
    chunkSum xs ys none = .nan false ∧ (bad ∨ (inf true ∧ inf false) → chunkSum xs ys (some k) = .nan false) ∧
    (¬ bad → ∀ n, inf n → ¬ inf (!n) → chunkSum xs ys (some k) = .inf n) ∧
    ((∀ p ∈ ps, p.1.isFin = true ∧ p.2.isFin = true) →
      (sum = 0 → chunkSum xs ys (some k) = .fin false 0 0) ∧
      (sum ≠ 0 → ∃ e b, Computes .f32 1 false false sum false (b, e) ∧ chunkSum xs ys (some k) = unpack .f32 false b))) ∧
  (∀ (acc : Nat) (v : FVal), let a := unpack .f32 false acc
    (a.isNan = true ∨ v.isNan = true ∨ (∃ n, a = .inf n ∧ v = .inf (!n)) → accAdd acc v = 0x7FC00000) ∧
    (∀ n, (a = .inf n ∧ v.isNan = false ∧ v ≠ .inf (!n)) ∨ (a.isFin = true ∧ v = .inf n) → accAdd acc v = infBits .f32 n) ∧
    (a.isFin = true → v.isFin = true → ∃ e, Computes .f32 1 false false (a.rat + v.rat) (a.neg && v.neg) (accAdd acc v, e))) ∧
  (∀ (acc : Nat) (xs ys : List FVal) (c : Nat) (scale : Nat → Option Int), ∃ f : Nat → Nat, f 0 = acc ∧
    (∀ q, f (q + 1) = accAdd (f q) (chunkSum ((xs.drop (q * c)).take c) ((ys.drop (q * c)).take c) (scale q))) ∧
    dotRow acc xs ys c scale = f (xs.length / c)) ∧
  (∀ (t : ETy) (bs : List Byte), isMatType t = true → bs.length = 32 + 64 / t.bits →
    let field := fun (bs : List Byte) (i : Nat) => fromLE bs / 2 ^ (t.bits * i) % 2 ^ t.bits
    let at' := fun (p i : Nat) => fromLE (bs.drop 32) / 2 ^ (4 * p + 2 * i) % 4
    let groups := 128 / t.bits
    ((∃ p, p < groups ∧ at' p 1 ≤ at' p 0) → widenRow t bs = none) ∧
    ((∀ p, p < groups → at' p 0 < at' p 1) → ∃ r, widenRow t bs = some r ∧ r.length = 64 ∧ ∀ p i, p < groups → i < 4 →
      field r (4 * p + i) = if i = at' p 0 then field bs (2 * p) else if i = at' p 1 then field bs (2 * p + 1) else 0)) ∧
  (∀ (s : State) (t : Team) (g : Group) (j : MatJob),
    let bytes := fun (a : DWord) (n : Nat) => (s.readChip t g (spaceOf a).1 (spaceOf a).2 n).map (·.1)
    let block := fun (ty : ETy) => ty == .q4 || ty == .mx4
    let len := fun (ty : ETy) (code : Nat) => if block ty then 32 * 2 ^ code else 512 / ty.bits
    let scale := fun (ty : ETy) (code : Nat) (region : DWord) (n k : Nat) => if block ty then
        let b := n * (512 / ty.bits / len ty code) + k / len ty code
        fromLE (bytes (region + BitVec.ofNat 64 (128 * (b / 128) + (4 * (b % 128 / 4) + ((b % 4) ^^^ (b % 128 / 4 % 4))))) 1)
      else 0
    let exp := fun (ty : ETy) (b : Nat) => match ty with
      | .q4 => q4Scale b
      | .mx4 => mx4Scale b
      | _ => some 0
    let field := fun (ty : ETy) (bs : List Byte) (k : Nat) => fromLE bs / 2 ^ (ty.bits * k) % 2 ^ ty.bits
    let row := fun (n : Nat) => (List.range (512 / j.typeA.bits)).map fun k => elemVal j.typeA (scale j.typeA j.blenA j.scaleA n k)
      (field j.typeA (((j.rows.find? (·.1 == n)).map (·.2)).getD []) k)
    let col := fun (n : Nat) => (List.range (512 / j.typeB.bits)).map fun k => elemVal j.typeB (scale j.typeB j.blenB j.scaleB n k)
      (field j.typeB (bytes (j.addrB + BitVec.ofNat 64 (64 * n)) 64) k)
    let chunk := match block j.typeA, block j.typeB with
      | true, true => min (len j.typeA j.blenA) (len j.typeB j.blenB)
      | true, false => len j.typeA j.blenA
      | false, true => len j.typeB j.blenB
      | false, false => 32
    isMatType j.typeA = true → isMatType j.typeB = true → j.blenA ≤ 2 → j.blenB ≤ 2 →
    ∀ L a q, s.accGranule t g j (L, a) q = (List.range 8).flatMap fun i =>
      let n := 8 * q + i
      toLE 4 (dotRow (fromLE (((bytes (a + BitVec.ofNat 64 (32 * q)) 32).drop (4 * i)).take 4)) (row L) (col n) chunk fun c =>
        match exp j.typeA (scale j.typeA j.blenA j.scaleA L (c * chunk)), exp j.typeB (scale j.typeB j.blenB j.scaleB n (c * chunk)) with
        | some x, some y => some (x + y)
        | _, _ => none)) ∧
  ∀ (t : Team) (j : MatJob) (x : PressedTile) (w : Nat × RegWrite),
    let span := 32 * j.members.length
    let per := 128 / x.len
    w ∈ deliverWrites t j x ↔ ∃ n v, n < 128 ∧ v ∈ j.rows ∧ n % span ∈ j.active ∧
      let gn := j.members.getD (n % span / 32) 0
      let sn := n % span % 32 / 4
      ∃ g y, t.group? gn = some g ∧ g.slice? sn = some y ∧
        let wb := ((j.bases.find? fun b => b.1 == gn && b.2.1 == sn).map (·.2.2)).getD y.wb
        let k := (wb + j.dst.val + n / span * j.rows.length + v.1) % g.budget
        let codes := (x.codes.drop (n * per)).take per
        let scales := (x.scales.drop (n * per)).take per
        let left := (codes.zip scales).flatMap fun c => c.1.map fun e => elemVal .q4 c.2 e
        let right := (List.range 128).map fun i => elemVal j.typeA 0 (fromLE v.2 / 2 ^ (j.typeA.bits * i) % 2 ^ j.typeA.bits)
        let old := (y.lane (Fin.ofNat 4 (n % span % 4))).get k
        w = (gn, .lane sn (n % span % 4) k (BitVec.ofNat 32 (dotRow old.toNat left right x.len fun q => q4Scale (scales.getD q 0))) false)

/-- R132, R315, R320, R321, R326, R328: the read of late sources frees them; a granule of an accumulator row of an MMA or
MMAS is read, summed and written once, and with the last every part of the operation returns; a delivery gives an MMV its
sums and counts the tile, and the stream's last one ends the stream and its STREAM; a tile that its ended stream cannot
deliver any more makes the MMV return in a stream fault with reason 0x5. R66 to R68, R257, R320, R321: a STREAM reads its
next tile ahead of its delivery, once R267 lets it; a tile that fails R60 or R66 ends the stream in that fault, and the
STREAM returns with it. The model's own choices in it: log 1, log 5. -/
def Obligations.VatsReturn : Prop :=
  (∀ (s : State) (r : OpRef) (pick : Nat) (t : Team) (g : Group) (p : Op) (j : MatJob), s.named = true → s.calm r.team = true →
     s.team? r.team = some t → t.frozen = false → t.group? r.group = some g → g.op? r.op = some p → p.job = .matrix j →
     r.group ∈ j.members → (∀ h ∈ t.groups, h.num ∉ j.members → ∀ q ∈ h.ops, q.job ≠ .vatPart r.group r.op) →
     (∀ h ∈ t.groups, ∀ y ∈ h.slices, ∀ q th, y.hold ≠ .path q th ∧ y.hold ≠ .pathFull q) →
     let main := fun (h : Group) (q : Op) => h.num = r.group ∧ q.id = r.op
     let parts := fun (f : Group → Op → Op) (u : Team) => u.mapGroups fun h =>
       { h with ops := h.ops.map fun q => if q.job = .vatPart r.group r.op ∨ main h q then f h q else q }
     let settle := fun (u : Team) => u.mapGroups fun h => if j.members.contains h.num then h.retire else h
     let back := fun (f : Option FaultInfo) (u : Team) => settle (parts (fun h q =>
       if main h q then { q with lateRead := false, returned := true, fault := f, early := [] } else { q with lateRead := false, returned := true }) u)
     exec (.lateSourceRead r) s =
       .next ((s.updTeam r.team fun u => settle (parts (fun _ q => { q with lateRead := false }) u)).flagsSettled r.team) ∧
     (p.returned = false → p.parked = none → j.kind ≠ .mmv → j.todo ≠ [] →
       let k := pick % j.todo.length
       ∀ x, j.todo[k]? = some x →
         let place := fun (x : Nat × Nat) => (j.acc.getD x.1 (0, 0)).2 + BitVec.ofNat 64 (32 * x.2)
         let a := place x
         let want : Want := { slice := p.slice, cls := 3, write := true, spans := s.chipSpan t a 32 :: s.operandSpans t j }
         let waits := (j.todo.take k).any (fun y => place y == a) || s.blocked t g p.prior want
         let sees := s.seenBy t g p
         let bs := sees.1.accGranule sees.2.1 sees.2.2 j (j.acc.getD x.1 (0, 0)) x.2
         let left := j.todo.eraseIdx k
         let s1 := (s.writeChip r.team r.group (spaceOf a).1 (spaceOf a).2 (bs.map fun b => (b, false))).updGroup r.team r.group fun h =>
           { h with ops := h.ops.map fun q => if q.id = r.op then
               { q with job := .matrix { j with todo := left }, early := q.early.filter fun e => e.spot != chipSpot a } else q }
         exec (.accumulatorWrite ⟨r.team, r.group, r.op, pick⟩) s = .next (
           (if waits then s else if left = [] then s1.updTeam r.team (back none) else s1).flagsSettled r.team)) ∧
     (p.returned = false → j.kind = .mmv →
       let lost : Option FaultInfo := some { cls := .stream, reason := 5, detail := j.stream }
       let bound := t.streams.find? fun x => x.group == j.producer.1 && x.op == j.producer.2
       let ends := fun (s1 : State) => exec (.tileDelivery r) s = .next (s1.flagsSettled r.team)
       (bound = none → ends (s.updTeam r.team (back lost))) ∧
       ∀ x, bound = some x →
         let read := x.delivered + x.ahead.length
         let mine := fun (y : Stream) => y.group == x.group && y.op == x.op
         (x.fault.isSome = true → read ≤ j.tile → ends (s.updTeam r.team (back lost))) ∧
         ((x.fault = none ∨ j.tile < read) → x.delivered ≠ j.tile → ends s) ∧
         ∀ tile more, x.delivered = j.tile → x.ahead = tile :: more →
           let s1 := (((deliverWrites t j tile).foldl (fun (s : State) w => s.updGroup r.team w.1 (w.2.apply ·)) s).updTeam r.team (back none))
           (x.delivered + 1 ≠ x.count → ends (s1.updTeam r.team fun u => { u with
             streams := u.streams.map fun y => if mine y then { y with delivered := y.delivered + 1, ahead := y.ahead.drop 1 } else y })) ∧
           (x.delivered + 1 = x.count → (∀ h q, t.group? x.group = some h → h.op? x.op = some q → ∀ k, q.job ≠ .matrix k) →
             ends ((s1.updTeam r.team fun u => { u with streams := u.streams.filter fun y => !mine y }).updGroup r.team x.group fun h =>
               ({ h with ops := h.ops.map fun q => if q.id = x.op then { q with returned := true, fault := none, early := [] } else q } : Group).retire)))) ∧
  ∀ (s : State) (r : OpRef) (t : Team) (g : Group) (p : Op) (a : DWord) (x : Stream), s.named = true → s.calm r.team = true →
    s.team? r.team = some t → t.frozen = false → t.group? r.group = some g → g.op? r.op = some p → p.job = .stream a → p.returned = false →
    p.parked = none → (∀ y ∈ g.slices, ∀ q th, y.hold ≠ .path q th ∧ y.hold ≠ .pathFull q) →
    t.streams.find? (fun y => y.group == g.num && y.op == p.id) = some x → x.fault = none →
    let n := x.delivered + x.ahead.length
    let scales := x.scales + BitVec.ofNat 64 (n * x.stride)
    let spans := s.tileSpans t x.region.toNat (x.first + n) scales
    let waits := s.blocked t g p.prior { slice := p.slice, cls := 4, write := false, spans := spans }
    let sees := s.seenBy t g p
    let tile := sees.1.readTile sees.2.1 sees.2.2 x.region.toNat (x.first + n) scales
    let put := fun (f : Stream → Stream) => (s.visitSpans t.die.val spans).updTeam r.team fun u =>
      { u with streams := u.streams.map fun y => if y.group = g.num ∧ y.op = p.id then f y else y }
    let op := fun (s1 : State) (f : Op → Op) (k : Group → Group) => s1.updGroup r.team r.group fun h =>
      k { h with ops := h.ops.map fun q => if q.id = r.op then f q else q }
    (x.count ≤ n ∨ waits = true → exec (.tileDelivery r) s = .next (s.flagsSettled r.team)) ∧
    (n < x.count → waits = false →
      (∀ y, tile = .ok y → exec (.tileDelivery r) s = .next ((op (put fun z => { z with ahead := z.ahead ++ [y] })
        (fun q => { q with early := [] }) id).flagsSettled r.team)) ∧
      ∀ f, tile = .error (.fault f) → exec (.tileDelivery r) s = .next ((op (put fun z => { z with fault := some f })
        (fun q => { q with returned := true, fault := some f, early := [] }) Group.retire).flagsSettled r.team))

/-- R130 to R133, R96, R240: the header of a clause whose waited flags are clear starts it: marks made under a waited flag
go, the set flags join, sg is 0, and the tokens of groups whose slice 0 starts it return when their flags are waited on.
While a waited flag is set nothing happens. A clause without an instruction is an illegal encoding (R131). R124, R135, R136,
R142: a page whose bytes have the digest of the page-hash table joins the die's text buffer; with another digest it does not,
and every group of a gang that needs it traps with a code-integrity fault. A gang whose clause lies in verified pages takes
the header and the clause's instructions, with their extension words, up to the next header or the end of the section, and as
many words of the copy of every further plane of the kernel that its active lanes occupy. The model's own choices in it: log
1, log 29, log 55. -/
def Obligations.ClausesBegin : Prop :=
  (∀ (s : State) (o : HeaderArgs),
     ((∃ m ∈ s.members, m.2.f &&& o.wait ≠ 0) → exec (.clauseHeader o) s = .next s) ∧
     ((∀ m ∈ s.members, m.2.f &&& o.wait = 0) → (∃ m ∈ s.members, (m.2.planeWords 0).length ≤ 1) →
       exec (.clauseHeader o) s = .next (s.raiseGang 0 { cls := .illegalEncoding, reason := 0xF })) ∧
     ((∀ m ∈ s.members, m.2.f &&& o.wait = 0 ∧ 1 < (m.2.planeWords 0).length) →
       let waits := fun (f : Option (Fin 12)) => match f with
         | some i => o.wait.getLsbD i.val
         | none => false
       let flag := fun (f : Option (Fin 12)) => match f with
         | some i => BitVec.ofNat 12 (2 ^ i.val)
         | none => 0
       exec (.clauseHeader o) s = .next (s.updTeam s.cur.team fun t =>
         { t with
           tokens := t.tokens.filter fun k => !((t.members s.cur.gang).any (fun m => m.1.num == k.group && m.2.num == 0) &&
             (waits k.rflag || waits k.sflag))
           groups := t.groups.map fun g => { g with slices := g.slices.map fun x =>
             if x.gang == s.cur.gang && !x.exited then
               { x with marks := x.marks.filter fun m => !waits m.flag, f := x.f ||| flag o.rflag ||| flag o.sflag, rflag := o.rflag,
                        sflag := o.sflag, yieldHint := o.yield, sg := 0, offset := x.offset + 4, inClause := true }
             else x } }))) ∧
  (∀ (s : State) (o : PageRef) (l : Launch) (ob : CodeObject) (v : Version) (bs : List Byte) (d : BitVec 256), s.launch? o.launch = some l →
    s.code? l = some (ob, v) → (∀ x ∈ (s.die o.die.val).text, ¬ (x.object = ob.uid ∧ x.version = v.num ∧ x.page = o.page)) →
    s.waiters o.die.val o.launch o.page ≠ [] → s.pageBytes o.die.val ob v o.page .fetch = .ok bs → s.pageDigest o.die.val ob v o.page = some d →
    (d = sha3 bs → exec (.textPageVerify o) s = .next (s.updDie o.die.val fun e =>
      { e with text := e.text ++ [{ object := ob.uid, version := v.num, page := o.page, bytes := bs }] })) ∧
    ∀ (t : Team) (g : Group) (k : Nat) (p : Fin 4) (off : Nat), d ≠ sha3 bs → s.waiters o.die.val o.launch o.page = [(t, k, p, off)] →
      s.named = true → s.calm t.uid = true → g ∈ t.groups → (∀ m ∈ t.members k, m.1 = g ∧ m.2.deferred = 0) →
      g.laneOps = [] → g.trapped = false → g.ended = false → g.num < 255 → s.control.getLsbD (16 + t.partition.val) = false →
      (∀ y ∈ g.slices, y.dbg = .none ∧ y.num < 255) →
      ∃ s1 h l1, exec (.textPageVerify o) s = .next s1 ∧ s1.group? t.uid g.num = some h ∧ s1.launch? o.launch = some l1 ∧ h.trapped = true ∧
        (∀ y ∈ h.slices, y.exited = true) ∧ l1.failed = true ∧ (∀ e, (s1.die e).text = (s.die e).text) ∧
        (s1.part t.partition.val).faultSeq = (s.part t.partition.val).faultSeq + 1 ∧ ∃ a,
        (l.first = none → l1.first = some (BitVec.ofNat 8 (FaultClass.code .codeIntegrity), a))) ∧
  ∀ (s : State) (r : GangRef) (t : Team) (l : Launch) (m : Group × Slice) (header : Word) (is : List (Word × Option Word))
    (cs : Fin 4 → List Word),
    s.team? r.team = some t → s.launch? t.launch = some l → (t.members r.gang).head? = some m → t.frozen = false → m.2.cbuf = none →
    is.length ≤ 16 → (∀ i ∈ is, isHeader i.1 = false ∧ i.1.getLsbD 30 = i.2.isSome) → cs 0 = header :: is.flatMap (fun i => i.1 :: i.2.toList) →
    let n := (cs 0).length
    let occupied := fun (p : Fin 4) => p = 0 ∨ (l.header.planeMask.testBit p.val = true ∧
      ∃ m ∈ t.members r.gang, ∃ j : Fin 4, m.2.em.getLsbD j.val = true ∧ (m.2.lane j).pl = p)
    let at' := fun (p : Fin 4) => m.2.offset.toNat + (if p = 0 then 0 else p.val * 2 ^ l.header.stride)
    let size := (l.text (Config.generation t.die.val)).2.1
    let word := fun (k : Nat) => s.textWord t.die.val l k
    (∀ p, occupied p → (cs p).length = n ∧ at' p + 4 * n ≤ size ∧ ∀ i, i < n → word (at' p + 4 * i) = (cs p)[i]?) →
    (∀ p, ¬ occupied p → cs p = []) → (size < at' 0 + 4 * n + 4 ∨ ∃ w, word (at' 0 + 4 * n) = some w ∧ isHeader w = true) →
    let b : ClauseBuf := { base := m.2.offset, planes := Vector.ofFn cs }
    exec (.clauseFill r) s = .next (s.updTeam r.team fun t => { t with groups := t.groups.map fun g => { g with slices := g.slices.map fun x =>
      if x.gang == r.gang && !x.exited then { x with cbuf := some b } else x } })

/-- R69, R72, R73, R75, R77, R80, R266: a packet of 128 bytes from a source whose entry permits its queue joins that queue;
one of another length or from an unknown source is counted, and one that its entry, its partition's reset or a full queue
turns away is rejected with an event to the partition's event target. Bulk data is written to the window of its sender's
partition. Events leave oldest first. The model's own choices in it: log 38. -/
def Obligations.Messages : Prop :=
  (∀ (s : State) (m : Sys2Proof.Message),
    (m.payload.length ≠ 128 → exec (.launchPacket m) s = .next { s with malformed := s.malformed.set m.port (s.malformed[m.port] + 1) }) ∧
    (m.payload.length = 128 → (∀ e ∈ s.acl.toList, e.getLsbD 63 = true → e.toNat % 2 ^ 32 ≠ m.source.toNat) →
      exec (.launchPacket m) s = .next { s with unmatched := s.unmatched + 1 }) ∧
    ∀ e : DWord, m.payload.length = 128 →
      s.acl.toList.find? (fun e => e.getLsbD 63 && decide (e.toNat % 2 ^ 32 = m.source.toNat)) = some e →
      let p := e.toNat / 2 ^ 52 % 16
      let q := (m.payload.getD 2 0).toNat
      let install := decide (fromLE (m.payload.take 2) = 2)
      let allowed := q < 16 ∧ e.getLsbD (32 + q) = true ∧ (install = true → e.getLsbD 62 = true)
      let rejected := fun (reason : BitVec 8) => ∃ t x, exec (.launchPacket m) s = .next t ∧
        (t.part p).events = (s.part p).events ++ [x] ∧ (t.part p).queues = (s.part p).queues ∧
        s.acl.toList[(s.part p).descriptor.toNat / 2 ^ 48 % 256]?.map (·.setWidth 32) = some x.dest ∧ x.event.code = 2 ∧
        x.event.reason = reason ∧ x.event.partition.toNat = p ∧ x.event.tag.toNat = fromLE ((m.payload.drop 4).take 4) ∧
        x.event.lost = (s.part p).lost ∧ (t.part p).lost = 0
      ((s.part p).descriptor.getLsbD 63 = false → exec (.launchPacket m) s = .next { s with unmatched := s.unmatched + 1 }) ∧
      ((s.part p).descriptor.getLsbD 63 = true →
        (¬ allowed → (s.part p).events.length < Config.eventDepth → rejected 0x07) ∧
        (allowed → (s.part p).resetting = true → (s.part p).events.length < Config.eventDepth → rejected 0x0B) ∧
        (allowed → (s.part p).resetting = false → Config.queueDepth ≤ (atV (s.part p).queues q []).length →
          (s.part p).events.length < Config.eventDepth → rejected 0x08) ∧
        (allowed → (s.part p).resetting = false → (atV (s.part p).queues q []).length < Config.queueDepth →
          exec (.launchPacket m) s = .next ((s.msg (if m.port.val < 9 then 12 else 13) (if q < 8 then 12 else 13)).updPart p fun x =>
            { x with queues := updV x.queues q fun l => l ++ [{ bytes := m.payload, install := install, aclM := e.getLsbD 62 }] })))) ∧
  (∀ (s s1 : State) (m : BulkData) (e : DWord) (p : Fin 16), s.usable m.source = some (e, p) → m.address.toNat + m.bytes.length ≤ 2 ^ 57 →
    s.writeGlobal (if m.port.val < 9 then 12 else 13) p.val m.address.toNat (m.bytes.map fun b => (b, false)) = .ok s1 →
    exec (.bulkDataIngress m) s = .next s1) ∧
  (∀ (s : State) (e : Outgoing) (r : List Outgoing), s.answers = e :: r →
    exec (.eventSend none) s = .next { s with answers := r, wire := s.wire ++ [e] }) ∧
  ∀ (s : State) (p : Fin 16) (e : Outgoing) (r : List Outgoing), (s.part p.val).events = e :: r →
    exec (.eventSend (some p)) s =
      .next ({ s with wire := s.wire ++ [e] }.updPart p.val fun x => { x with events := r, resetWait := x.resetWait - 1 })

/-- R78, R79, R37, R246: the head whose turn it is, of the partition whose turn it is among those with one ready and of the
highest priority there, leaves its queue. A launch whose packet and header pass every check is bound to the object's current
version, with the packet's fields and arguments; an object whose header passes is installed with version 0, and the launches
bound to one at its address keep the text that they have. A packet or object that fails a check is rejected with an event.
The model's own choices in it: log 36, log 37, log 55, log 56, log 59. -/
def Obligations.PacketsDispatch : Prop :=
  ∀ (s : State) (u : Fin 2) (p q : Fin 16) (x : Queued), s.nextHead u = some (p, .queue q x) →
    let le := fun (i n : Nat) => fromLE ((x.bytes.drop i).take n)
    let s0 := s.takeHead u p (.queue q x)
    let taken := fun (t : State) => atV (t.part p.val).queues q.val [] = (atV (s.part p.val).queues q.val []).drop 1
    let tells := fun (t : State) (code reason : Nat) => (s.part p.val).events.length < Config.eventDepth → ∃ e,
      (t.part p.val).events = (s.part p.val).events ++ [e] ∧ e.event.code.toNat = code ∧ e.event.reason.toNat = reason % 256 ∧
      e.event.tag.toNat = le 4 4
    (∃ i, i < 16 ∧ p = Fin.ofNat 16 (atV s.served u.val 0 + i) ∧
      (∀ j, j < i → ∀ h ∈ s.heads u (Fin.ofNat 16 (atV s.served u.val 0 + j)),
        s.headReady u (Fin.ofNat 16 (atV s.served u.val 0 + j)) h = false) ∧
      ∀ h ∈ s.heads u p, s.headReady u p h = true → h.priority ≤ le 3 1 % 4) ∧
    (∀ ob v h, x.install = false → s0.judgePacket (12 + u.val) p false x.bytes = .ok (ob, v, h) →
      ∃ t l, exec (.launchDispatch u) s = .next t ∧ t.launches = s.launches ++ [l] ∧ t.teams = s.teams ∧
        l.id = s.nextId ∧ t.nextId = s.nextId + 1 ∧ l.num = (s.part p.val).launchNum ∧
        (t.part p.val).launchNum = (s.part p.val).launchNum + 1 ∧ l.partition = p ∧ l.queue = some q ∧ l.object = ob.addr ∧ l.code = ob.uid ∧
        l.version = v.num ∧ l.header = h ∧ l.tag.toNat = le 4 4 ∧ l.priority.val = le 3 1 % 4 ∧ l.dimX = le 0x14 4 ∧ l.dimY = le 0x18 2 ∧
        l.dimZ = le 0x1A 2 ∧ (∀ i : Fin 16, l.args[i].toNat = le (0x40 + 4 * i.val) 4) ∧
        l.privileged = (x.aclM && s.control.getLsbD p.val) ∧ l.placed = 0 ∧ l.exited = 0 ∧ l.failed = false ∧ taken t) ∧
    (∀ r, x.install = false → s0.judgePacket (12 + u.val) p false x.bytes = .error r →
      ∃ t, exec (.launchDispatch u) s = .next t ∧ t.launches = s.launches ∧ taken t ∧ tells t 2 r) ∧
    (x.install = true → installFields x.bytes = false →
      ∃ t, exec (.install u) s = .next t ∧ t.objects = s.objects ∧ taken t ∧ tells t 2 0x09) ∧
    (∀ r, x.install = true → installFields x.bytes = true → s0.judgeInstall (12 + u.val) p (le 8 8) = .error r →
      ∃ t, exec (.install u) s = .next t ∧ t.objects = s.objects ∧ taken t ∧ tells t 5 r) ∧
    ∀ k, x.install = true → installFields x.bytes = true → s0.judgeInstall (12 + u.val) p (le 8 8) = .ok k →
      ∃ t rest, exec (.install u) s = .next t ∧ t.launches = s.launches ∧ taken t ∧ tells t 4 0 ∧
        t.objects = { uid := s.nextId, partition := p, addr := BitVec.ofNat 64 (le 8 8), sections := k, current := 0,
                      versions := [{ num := 0, pages := [], digests := [] }] } :: rest ∧
        ∀ l ∈ s.launches, l.code < s.nextId → ∀ c, s.code? l = some c → ∃ d, t.code? l = some d ∧ d.2 = c.2 ∧ d.1.uid = c.1.uid ∧
          d.1.addr = c.1.addr ∧ d.1.sections = c.1.sections

/-- R85, R91, R93, R94, R95, R225: the next team of the launch that a core serves next becomes resident there with the
launch's next number; every slice begins with zero registers but for the data pair, every lane active in plane 0, at the
entry of the text that runs on the die, and every group with mode register 1 and vat register 0. The model's own choices in
it: log 1, log 35. -/
def Obligations.TeamsArePlaced : Prop :=
  ∀ (s : State) (o : PlaceArgs) (l k : Launch) (rs : List RowPlace), s.launch? o.launch = some l →
    l.placed < l.dimX * l.dimY * l.dimZ → s.coreOpen o.die o.core = true → s.tokensFit l.partition l.header.tokens = true →
    s.coreFits l o.die o.core = some rs → s.nextPlace l.unit o.die o.core = some k → k.id = l.id → l.die = none →
    (l.header.width = 8 ∨ l.header.width = 16 ∨ l.header.width = 32) → l.header.producers ≤ 16 → l.header.consumers ≤ 16 →
    ∃ t u, exec (.teamPlacement o) s = .next t ∧ t.teams = s.teams ++ [u] ∧ t.nextUid = s.nextUid + 1 ∧
      (t.launch? o.launch).map (·.placed) = some (l.placed + 1) ∧ (∀ r ∈ t.residues, ¬ (r.die = o.die ∧ r.core = o.core)) ∧
      u.uid = s.nextUid ∧ u.launch = l.id ∧ u.partition = l.partition ∧ u.die = o.die ∧ u.core = o.core ∧ u.lin = l.placed ∧
      l.placed = u.x + l.dimX * (u.y + l.dimY * u.z) ∧ u.x < l.dimX ∧ u.y < l.dimY ∧ u.z < l.dimZ ∧
      u.shared.cells = [] ∧ u.sharedPoison = [] ∧ u.tokens = [] ∧ u.streams = [] ∧ u.frozen = false ∧
      u.groups.map (·.num) = List.range (l.header.producers + l.header.consumers) ∧
      ∀ g ∈ u.groups, g.width = l.header.width ∧ g.mode = 1 ∧ g.vat = 0 ∧ g.ops = [] ∧ g.started = true ∧ g.trapped = false ∧
        g.ended = false ∧ g.budget = (if g.consumer then l.header.budgetC else l.header.budgetP) ∧ g.slices.length = l.header.width / 4 ∧
        ∀ x ∈ g.slices, x.em = 0xF ∧ x.wb = 0 ∧ x.lo = 0 ∧ x.f = 0 ∧ x.sg = 0 ∧ x.ie.valid = false ∧ x.marks = [] ∧ x.exited = false ∧
          x.offset = BitVec.ofNat 32 (l.text (Config.generation o.die.val)).2.2 ∧
          x.pair l.header.dataReg = l.object + BitVec.ofNat 64 l.sections.data ∧
          (∀ k : SReg, k ≠ l.header.dataReg → k ≠ up l.header.dataReg → x.getS k = 0) ∧
          ∀ j : Fin 4, (x.lane j).pl = 0 ∧ (x.lane j).p = 0 ∧ ∀ i, (x.lane j).get i = 0

/-- R94, R95, R236, R353, R357, R389 to R391, R398: a group whose slices have exited and whose operations have returned ends,
and a late fault that nothing has raised is raised there; the last group's end takes its team away, whose shared memory stays
as it is, and its launch counts it. A launch all of whose teams have exited completes with an event: code 1 with its number
and the number of its curd records, each die that holds some starting a continuation when a RELAUNCH has registered a packet;
or, when a trap has terminated one of its groups, code 3 with its first record's class and address. The model's own choices
in it: log 19. -/
def Obligations.WorkEnds : Prop :=
  (∀ (s : State) (r : GroupRef) (t : Team) (g : Group) (l : Launch), s.named = true → s.team? r.team = some t → t.group? r.group = some g →
    s.launch? t.launch = some l → t.frozen = false → g.started = true → g.ended = false → (∀ x ∈ g.slices, x.exited = true) →
    g.ops = [] →
    let others := t.groups.all fun h => h.num == g.num || h.ended
    ((g.trapped = true ∨ g.faulted = []) →
      (others = false → exec (.groupEnd r) s = .next ((s.traceGroup t l 5 g.num).updTeam r.team fun u =>
        let close := fun (h : Group) => if h.num = g.num then { h with ended := true, keep := none } else h
        { u with groups := u.groups.map close, tokens := u.tokens.filter (·.group != g.num) })) ∧
      (others = true → ∃ t1, exec (.groupEnd r) s = .next t1 ∧ t1.teams = s.teams.filter (·.uid != r.team) ∧
        (t1.launch? t.launch).map (·.exited) = some (l.exited + 1) ∧
        (t.shared.cells ≠ [] → ∃ x ∈ t1.residues, x.die = t.die ∧ x.core = t.core ∧ x.lin = t.lin ∧ x.shared = t.shared))) ∧
    (g.trapped = false → ∀ o f, o ∈ g.faulted → o.fault = some f → (∀ q ∈ g.faulted, q ≠ o → o.id < q.id) →
      ∃ t1, exec (.groupEnd r) s = .next t1 ∧ (t1.launch? t.launch).map (·.failed) = some true ∧
        (t1.part t.partition.val).faultSeq = (s.part t.partition.val).faultSeq + 1 ∧
        (l.first = none → (t1.launch? t.launch).map (fun k => k.first.map (·.1)) = some (some (BitVec.ofNat 8 f.cls.code))))) ∧
  ∀ (s : State) (l : Launch), s.launch? l.id = some l → l.placed = l.dimX * l.dimY * l.dimZ → l.exited = l.placed →
    (∀ x ∈ s.landings, x.launch ≠ l.id) → l.dieReset = false → (s.part l.partition.val).events.length < Config.eventDepth →
    let held := fun (d : Fin 8) => (s.die d.val).curd.filter (·.launch == l.id)
    ∃ t e, exec (.launchComplete l.id) s = .next t ∧ t.launches = s.launches.filter (·.id != l.id) ∧
      (t.part l.partition.val).events = (s.part l.partition.val).events ++ [e] ∧ e.event.tag = l.tag ∧
      e.event.partition.toNat = l.partition.val ∧
      (l.failed = false → e.event.code = 1 ∧ e.event.reason = 0 ∧
        e.event.detail = BitVec.ofNat 64 (l.num.toNat + 2 ^ 32 * ((List.finRange 8).map fun d => (held d).length).sum)) ∧
      (l.failed = true → ∀ c a, l.first = some (c, a) → e.event.code = 3 ∧ e.event.reason = c ∧ e.event.detail = a) ∧
      (∀ b, l.failed = false → l.registered = some b → t.continuations = s.continuations ++
        ((List.finRange 8).filter fun d => !(held d).isEmpty).map fun d =>
          { partition := l.partition, die := d, launch := l.id, packet := b, privileged := l.privileged }) ∧
      ((l.failed = true ∨ l.registered = none) → t.continuations = s.continuations ∧
        ∀ d : Fin 8, (t.die d.val).curd = (s.die d.val).curd.filter (·.launch != l.id))

/-- R246, R248, R249, R267: slices of a privileged launch, in turn. PATCHREQ puts the request that its descriptor describes
behind those of the patch engine, and TCLK its command behind those of the tile that it names; a die that is no compute die
ends the command at once with status 0x54. Both wait while older accesses of the group are still to be performed. R107, R112,
R138 to R140, R248, R413: the patch engine carries out its oldest request and writes its status. A versioned one makes a
version with the new number current, whose pages hold the new bytes, and what launches are bound to stays; one in place
leaves the versions' numbers as they are and waits while a page that it writes is replicated, whose collapse it begins. A
clause that a slice holds stays wholly old. The model's own choices in it: log 5, log 49, log 56. -/
def Obligations.EngineRequests : Prop :=
  (∀ (s : State) (o : SReg) (t : Team) (l : Launch), s.named = true → s.begins = true → s.team? s.cur.team = some t →
     s.launch? t.launch = some l → l.privileged = true → s.unmarked (sPair o) [] = true → s.cleanScalars (sPair o) = true →
     let bytes := fun (s1 : State) (t : Team) (x : Slice) (n : Nat) => match s1.readGlobal t.die.val t.partition.val .read (x.pair o).toNat n with
       | .ok bs => bs.map (·.1)
       | .error _ => []
     let readable := fun (n : Nat) (s1 : State) (t : Team) (x : Slice) => (x.pair o).toNat % n = 0 ∧ (x.pair o).toNat < 2 ^ 57 ∧
       ∃ bs, s1.readGlobal t.die.val t.partition.val .read (x.pair o).toNat n = .ok bs ∧ ∀ b ∈ bs, b.2 = false
     let visited := fun (s1 : State) (t : Team) (x : Slice) (n : Nat) =>
       s1.visitSpans t.die.val (s1.globalSpans t .read (x.pair o).toNat n)
     let le := fun (bs : List Byte) (i n : Nat) => fromLE ((bs.drop i).take n)
     let patch := fun (s1 : State) (t : Team) (_ : Group) (x : Slice) =>
       let bs := bytes s1 t x 32
       let r : PatchReq := { partition := t.partition, die := Fin.ofNat 14 t.die.val, desc := x.pair o, object := BitVec.ofNat 64 (le bs 0 8),
                             offset := le bs 8 4, length := le bs 12 4, source := BitVec.ofNat 64 (le bs 16 8), flags := le bs 24 2,
                             reserved := le bs 26 2 }
       let s2 := (visited s1 t x 32).msg t.die.val 12
       { s2 with patches := s2.patches ++ [r] }
     let command := fun (s1 : State) (t : Team) (_ : Group) (x : Slice) =>
       let bs := bytes s1 t x 64
       if le bs 2 1 < 8 then ((visited s1 t x 64).msg t.die.val (le bs 2 1)).updTile (Fin.ofNat 8 (le bs 2 1)) (le bs 4 4) fun y =>
         { y with cmds := y.cmds ++ [tileCmd t bs] }
       else (visited s1 t x 64).tileRecord t.die.val (tileCmd t bs) 0x54 0 0
     (s.whenInTurn patch (fun s1 t g x => t.orderFree g x none = true ∧ readable 32 s1 t x) → exec (.patchreq o) s = .next (s.allInTurn patch)) ∧
     (s.whenInTurn command (fun s1 t g x => t.orderFree g x none = true ∧ readable 64 s1 t x ∧
         le (bytes s1 t x 64) 16 8 % 32 = 0 ∧ le (bytes s1 t x 64) 16 8 < 2 ^ 57) →
       exec (.tclk o) s = .next (s.allInTurn command)) ∧
     ∀ (g : Group) (x : Slice), s.members = [(g, x)] → t.orderFree g x none = false →
       (readable 32 s t x → exec (.patchreq o) s = .next (s.mapGang fun _ y => { y with hold := .order none })) ∧
       (readable 64 s t x → exec (.tclk o) s = .next (s.mapGang fun _ y => { y with hold := .order none }))) ∧
  (∀ (s : State) (r : PatchReq) (rest : List PatchReq), s.patches = r :: rest →
    let record := fun (s1 : State) (status : Nat) =>
      Host.Outcome.next ({ s1 with patches := rest }.writeRecord 12 r.partition.val (r.desc.toNat + 0x1C) (toLE 4 status)).1
    (r.flags % 2 = 0 → (∀ e, s.judgePatch r = .error e → exec .patchVersioned s = record s e) ∧
      ∀ ob new v ps, s.judgePatch r = .ok (ob, new) → ob.version? ob.current = some v →
        s.newPages ob v ((r.offset, new) :: versionFields ob.sections (ob.current + 1))
          (pagesOf r.offset r.length ++ pagesOf ob.sections.kernelTable (96 * ob.sections.kernels)).eraseDups = some ps →
        ∃ t o w, exec .patchVersioned s = .next t ∧ t.patches = rest ∧ o ∈ t.objects ∧ o.uid = ob.uid ∧ o.addr = ob.addr ∧
          o.current = ob.current + 1 ∧ w ∈ o.versions ∧ w.num = ob.current + 1 ∧ (∀ p ∈ ps, p ∈ w.pages ∧ (p.1, sha3 p.2) ∈ w.digests) ∧
          ∀ l ∈ s.launches, ∀ c, s.code? l = some c → ∃ d, t.code? l = some d ∧ d.2 = c.2 ∧ d.1.uid = c.1.uid) ∧
    (r.flags % 2 = 1 → (∀ e, s.judgePatch r = .error e → exec .patchInPlace s = record s e) ∧
      ∀ ob new v ps, s.judgePatch r = .ok (ob, new) → ob.version? ob.current = some v →
        let pgs := pagesOf r.offset r.length
        s.newPages ob v [(r.offset, new)] pgs = some ps →
        (∀ va, s.patchStop ob pgs = some (va, .collapse) → exec .patchInPlace s = .next (s.beginCollapse 12 ob.partition va)) ∧
        (∀ va, s.patchStop ob pgs = some (va, .parked) → exec .patchInPlace s = .next s) ∧
        (∀ va f, s.patchStop ob pgs = some (va, f) → f ≠ .collapse → f ≠ .parked → exec .patchInPlace s = record s 0x44) ∧
        (s.patchStop ob pgs = none →
          let keep := s.outliveTeam ob r.offset r.length
          let s1 : State := { s with teams := s.teams.map keep, images := s.images.map fun i =>
            { i with teams := i.teams.map fun t => (keep t.1, t.2) } }
          exec .patchInPlace s = record ((ps.foldl (fun s p => s.patchPage ob v p) s1).dropText ob pgs) 1))) ∧
  ∀ (s : State) (die off len : Nat) (l : Launch) (b : ClauseBuf), let c := s.outlive die l off len b
    c.base = b.base ∧ c.planes = b.planes ∧ ∀ p : Fin 4, b.old[p] ≠ [] → c.old[p] = b.old[p]

/-- R113, R118 to R120, R360: a collapse leaves the home copy of its page alone and counts; a migration command of one 4 KiB
page changes its permissions, or moves its bytes and then its entry, and is recorded; an error poisons what it cannot
correct, and is counted. The model's own choices in it: log 5, log 34, log 50, log 60. -/
def Obligations.PagesChange : Prop :=
  (∀ (s : State) (o : VaRef) (level pa : Nat) (e : DWord), (o.partition, o.va) ∈ s.collapsing →
    s.leafFor o.partition.val o.va.toNat = .ok (level, pa, e) → ptePlace e = 2 → pteState e = 1 →
    ∃ t, exec (.collapse o) s = .next t ∧ t.collapsing = s.collapsing.erase (o.partition, o.va) ∧
      (t.part o.partition.val).cCollapse = (s.part o.partition.val).cCollapse + 1 ∧ t.teams.map (·.uid) = s.teams.map (·.uid) ∧
      ((s.part o.partition.val).traceRing.toNat % 32 = 0 → ∀ key a, t.byteAt key a =
        (s.putEntry o.partition.val pa (setBits (setBits e 6 2 1) 10 2 0)).byteAt key a)) ∧
  (∀ (s : State) (u : Fin 2) (c : MigCmd) (rest : List MigCmd) (p : Fin 16) (level pa : Nat) (e : DWord), s.migrations[u] = c :: rest →
    s.collapsingIn c = false → c.partition = p.val → c.bad = false → c.length = 4096 →
    let s0 := { s with migrations := s.migrations.set u rest }
    let va := c.start.toNat
    s0.leafFor p.val va = .ok (level, pa, e) → s0.judgeLeaf p.val .agent level e = none → leafBits level e = 12 →
    let rewrite := fun (s1 : State) (f : DWord) => (s1.putEntry p.val pa f).uncache p.val va 4096
    let record := fun (s1 : State) => Host.Outcome.next (s1.migrationRecord (12 + u.val) p c 0 1)
    (c.op = 2 → exec (.migrateProtect u) s = record (rewrite s0 (setBits e 1 3 c.permissions))) ∧
    (c.op ≠ 2 → c.dest.toNat + 4096 ≤ s0.tierBound (c.leaf c.dest.toNat e) →
      let f := c.leaf c.dest.toNat e
      let moved := record (((rewrite (s0.copyPages (s0.keyIn p.val (pteKey e)) e f 1) f).redirect p va level f false).serve (p, va, 4096))
      (c.op = 1 → exec (.migrateMove u) s = moved) ∧ (c.op = 3 → exec (.migrateReplicate u) s = moved))) ∧
  ∀ (s : State) (d : Fin 14) (i : Nat), 32 * i < s.memoryOf d.val →
    exec (.eccError { die := d, target := .granule d i, correctable := true }) s =
      .next (s.updDie d.val fun x => { x with cCorrected := x.cCorrected + 1 }) ∧
    ∃ t, exec (.eccError { die := d, target := .granule d i, correctable := false }) s = .next t ∧
      (t.die d.val).cUncorrected = (s.die d.val).cUncorrected + 1 ∧ t.mem = s.mem ∧
      ∀ k, k ∈ t.poison ↔ k ∈ s.poison ∨ k = d.val * 2 ^ 43 + i

/-- R250, R375 to R379, R383: a tile's clock commands. A save stops the clock of the tile's teams and counts the requests
that are outstanding; what they bring back is caught, and a response for a team that has gone is stale. When every request
has been answered the answers are folded and an image is sealed: the teams leave and the tile is held. A restore of an intact
image of the die's revision opens a tile that holds no team with the teams of the image, but for those whose partition has
been reset, which are counted; another image has status 0x53. A start opens a held tile. The model's own choices in it: log
5, log 8, log 23, log 39. -/
def Obligations.TilesSave : Prop :=
  ∀ (s : State) (o : CoreRef) (k : TileCmd) (rest : List TileCmd),
    let x := s.tile o.die o.core
    let after := fun (s1 : State) (st : TileState) (status : Nat) =>
      ((s1.updTile o.die o.core fun y => { y with state := st, cmds := y.cmds.drop 1 }).tileRecord o.die.val k status 0 0)
    x.cmds = k :: rest → s.cmdStatus o.die o.core k = none →
    let mine := fun (t : Team) => t.die = o.die ∧ t.core = o.core
    (x.state = .open → k.op = 1 → exec (.tileStopSave o) s = .next
      ({ s with teams := s.teams.map fun (t : Team) => if mine t then { t with frozen := true } else t }.updTile o.die o.core fun y =>
        { y with state := .saving { outstanding := s.outstanding o.die o.core, whey := [], lost := 0, stale := 0,
                                    counter := (s.die o.die.val).counter } })) ∧
    (x.state = .held → k.op = 1 → exec (.tileStopSave o) s = .next (after s .held 0x52)) ∧
    (∀ v, x.state = .saving v →
      (∀ (t : Team) (w : WheyRef) (s1 : State) (e : Whey), t ∈ s.teamsOn o.die o.core → wheyTeam w = some t.uid → s.catchRef w = some (s1, e) →
        exec (.wheyEntry { die := o.die, core := o.core, what := w }) s = .next (s1.updTile o.die o.core fun y =>
          { y with state := .saving { v with whey := v.whey ++ [e] } })) ∧
      (∀ (r : PartRef) (p : Orphan), (∀ t ∈ s.teamsOn o.die o.core, t.uid ≠ r.team) → p ∈ s.orphans → p.team = r.team → p.group = r.group →
        p.op = r.op → p.die = o.die → p.core = o.core →
        ∃ t, exec (.wheyEntry { die := o.die, core := o.core, what := .response r }) s = .next t ∧
          (t.tile o.die o.core).state = .saving { v with stale := v.stale + 1 } ∧ t.teams = s.teams) ∧
      (s.allCaught o.die o.core v = false → exec (.saveSeal o) s = .next s) ∧
      (s.allCaught o.die o.core v = true →
        let s1 := (v.whey.foldl State.foldWhey s).holdPuts o.die o.core
        let ts := (s1.teamsOn o.die o.core).map fun t => ({ t with frozen := false }, (s1.part t.partition.val).epoch)
        ∀ s2, s1.writeImage o.die.val k.partition k.image none ts (s1.subsOn o.die o.core)
            { counter := v.counter, outstanding := v.outstanding, folded := countResponses v.whey, lost := v.lost, stale := v.stale } = some s2 →
        ∃ t i, exec (.saveSeal o) s = .next t ∧ t.images = s1.images ++ [i] ∧ i.partition = k.partition ∧ i.addr = k.image ∧
          i.slot = none ∧ i.teams = ts ∧ i.live = true ∧ t.teams = s1.teams.filter (fun t => !(t.die == o.die && t.core == o.core)) ∧
          (t.tile o.die o.core).state = .held ∧ (t.tile o.die o.core).cmds = (s1.tile o.die o.core).cmds.drop 1)) ∧
    ((x.state = .open ∨ x.state = .held) → s.occupied o.die o.core = false →
      (k.op = 4 → exec (.tileStart o) s = .next (after s .open 0)) ∧
      ∀ h body, k.op = 2 → s.drainedAt o.die o.core = false → s.readImage o.die.val k.partition k.image = some (h, body) →
        (s.imageFits o.die.val h body = false → exec (.tileRestore o) s = .next (after s x.state 0x53)) ∧
        ∀ i, s.imageFits o.die.val h body = true → s.images.find? (fun i => i.slot.isNone && i.digest == sha3 body) = some i →
          (∀ n y, i.teams[n]? = some y → directory h n = some (y.1.partition.val, y.2)) →
          let back := fun (y : Team × BitVec 4) => (s.part y.1.partition.val).epoch = y.2 ∧ (s.launch? y.1.launch).isSome = true
          let name := fun (t : Team) => (t.launch, t.partition, t.die, t.core, t.lin, t.frozen)
          ∃ t, exec (.tileRestore o) s = .next t ∧ (t.tile o.die o.core).state = .open ∧ (t.tile o.die o.core).cmds = rest ∧
            t.images.map (·.digest) = s.images.map (·.digest) ∧ t.teams.map name = s.teams.map name ++
              (i.teams.filter fun y => decide (back y)).map fun y => name { y.1 with die := o.die, core := o.core, frozen := false })

/-- R384, R385: a scan test drains the tile, runs, and ends with the tile open when the signature is the expected one and
held when it is not; a launch of the command's priority that waits for the core ends the test. The model's own choices in it:
log 1, log 7. -/
def Obligations.ScanTests : Prop :=
  ∀ (s : State) (o : CoreRef) (k : TileCmd) (rest : List TileCmd),
    let x := s.tile o.die o.core
    x.cmds = k :: rest →
    let ends := fun (s1 : State) (out : Out) (st : TileState) (status elapsed : Nat) (signature : Word) =>
      out = .next (((s1.clearCore o.die o.core).updTile o.die o.core fun y => { y with state := st, cmds := y.cmds.drop 1 }).tileRecord
        o.die.val k status elapsed signature)
    ((x.state = .open ∨ x.state = .held) → k.op = 3 → s.cmdStatus o.die o.core k = none →
      (s.occupied o.die o.core = false → exec (.inFieldScanTest o) s = .next (s.updTile o.die o.core fun y => { y with state := .draining })) ∧
      (s.occupied o.die o.core = true → exec (.inFieldScanTest o) s = .next
        ((s.updTile o.die o.core fun y => { y with cmds := y.cmds.drop 1 }).tileRecord o.die.val k 0x52 0 0))) ∧
    (x.state = .draining → ((∃ y ∈ s.orphans, y.die = o.die ∧ y.core = o.core) → exec (.scanDrainEnd o) s = .next s) ∧
      ((∀ y ∈ s.orphans, ¬ (y.die = o.die ∧ y.core = o.core)) →
        (s.waitingFor o k.abort = false → exec (.scanDrainEnd o) s =
          .next ((s.updDie o.die.val fun d => { d with text := [] }).updTile o.die o.core fun y => { y with state := .testing })) ∧
        (s.waitingFor o k.abort = true → ends s (exec (.scanDrainEnd o) s) .open 0x55 0 0))) ∧
    (x.state = .testing →
      let sig := Config.scanSignature o.die.val o.core (s.die o.die.val).revision k.duration s.free
      let s1 := { s with free := s.free + 1 }
      (s.waitingFor o k.abort = false → sig = k.expected → ends s1 (exec (.scanPatternRunEnd o) s) .open 0 k.duration sig) ∧
      (s.waitingFor o k.abort = false → sig ≠ k.expected → ends s1 (exec (.scanPatternRunEnd o) s) .held 0x56 k.duration sig) ∧
      (s.waitingFor o k.abort = true → ends s (exec (.scanPatternRunEnd o) s) .open 0x55 k.duration 0) ∧
      ∀ n, n ≤ k.duration → s.waitingFor o k.abort = true →
        ends s (exec (.scanTestAbort { die := o.die, core := o.core, elapsed := n }) s) .open 0x55 n 0)

/-- R99, R100, R190, R380: the scheduler acts on a report: a swap saves the team in the lowest free slot of its partition's
pool, and a waiting team, saved or not yet placed, takes its place; a report that leads to no swap is counted. A swapped team
returns to an open core of the same revision, or is dropped and counted when its partition has been reset. The model's own
choices in it: log 1, log 23, log 39, log 45, log 58. -/
def Obligations.SwapsAndReturns : Prop :=
  (∀ (s : State) (o : SwapTeamArgs) (t : Team), (s.tile o.die o.core).pending = true → s.team? o.team = some t → t.die = o.die →
    t.core = o.core →
    let s1 := s.updTile o.die o.core fun y => { y with pending := false }
    let p := s.part t.partition.val
    (∀ slot s2, s1.allWaiting o.die o.core = true → p.swapPolicy = 1 → slot < p.poolSlots →
      (∀ i ∈ s.images, i.partition = t.partition → i.slot ≠ some slot) →
      (∀ n, n < slot → ∃ i ∈ s.images, i.partition = t.partition ∧ i.slot = some n) → s1.saveTeam t slot = some s2 →
      (∀ s3, s2.placeWaiting t.partition t.die t.core t.uid = some s3 → exec (.teamSwap o) s = .next s3) ∧
      ((∀ i ∈ s2.images, i.partition = t.partition → ∃ y ∈ i.teams, y.1.uid = t.uid) →
        ∀ w rs, bestLaunch 0 (s2.launches.filter fun l => l.partition == t.partition && (s2.canPlace l t.die t.core).isSome) = some w →
          s2.canPlace w t.die t.core = some rs → exec (.teamSwap o) s = .next (s2.placeTeam w t.die t.core rs))) ∧
    ((p.swapPolicy = 0 ∨ s1.allWaiting o.die o.core = false) → exec (.teamSwap o) s = .next (s1.countReport o.die o.core)) ∧
    (p.swapPolicy = 1 → p.poolSlots = 0 → ∃ u, exec (.teamSwap o) s = .next u ∧ u.images = s.images ∧
      (u.part t.partition.val).cWaiting = p.cWaiting + 1 ∧ (u.tile o.die o.core).pending = false)) ∧
  ∀ (s : State) (o : SwapRestoreArgs) (i : Image) (slot : Nat) (t : Team) (e : BitVec 4) (l : Launch) (rs : List RowPlace)
    (h body : List Byte), s.images[o.image]? = some i → i.slot = some slot → i.teams = [(t, e)] → s.launch? t.launch = some l →
    i.generation = Config.generation o.die.val → i.revision = (s.die o.die.val).revision → s.coreOpen o.die o.core = true →
    s.coreFits { l with die := none } o.die o.core = some rs → s.readImage o.die.val i.partition i.addr = some (h, body) →
    s.imageFits o.die.val h body = true → sha3 body = i.digest → directory h 0 = some (t.partition.val, e) →
    let name := fun (t : Team) => (t.launch, t.partition, t.die, t.core, t.lin, t.frozen)
    ∃ u, exec (.swapRestore o) s = .next u ∧ u.images = s.images.erase i ∧
      ((s.part t.partition.val).epoch = e →
        u.teams.map name = s.teams.map name ++ [name { t with die := o.die, core := o.core, frozen := false }]) ∧
      ((s.part t.partition.val).epoch ≠ e → u.teams = s.teams ∧
        (u.part t.partition.val).cDropped = (s.part t.partition.val).cDropped + 1)

/-- R21, R400 to R403: with every attempt passing and a journal that records none, bring-up powers the package: every die
live, with the capability word that it gave, partitions disabled, access-control entries cleared, and two journal entries for
each of its seventeen steps. Loss of power keeps the journal, the owner and the out-of-service marks. R7, R26, R73, R80, R81,
R366, R405, R407: a partition whose events from before its reset have left says that the reset is complete, to its event
target, and its descriptor returns to its reset value; a near or far die that has trained again begins an incarnation and its
command is answered to its sender on its session; a thermal trip stops admission and tells every partition; and the check of
a cluster that holds no team drains it. The model's own choices in it: log 2, log 3, log 4, log 34, log 43, log 44, log 46,
log 51. -/
def Obligations.PackageEvents : Prop :=
  ((∀ (s : State) (o : BringUp) (w : Vector Word 8), s.powered = false → s.journal = [] → s.outOfService = 0 → o.lostAt = none →
     o.firmwareOk = true → (∀ i : Fin 4, o.nearOk[i] = true) → (∀ i : Fin 2, o.farOk[i] = true) →
     (∀ i : Fin 8, o.compute[i] = some w[i] ∧ w[i].toNat / 2 ^ 16 % 256 = (if i.val < 4 then 6 else 5) ∧
       1 ≤ w[i].toNat / 2 ^ 8 % 256 ∧ w[i].toNat / 2 ^ 8 % 256 ≤ (if i.val < 4 then 160 else 128) ∧ w[i].toNat % 256 = 16) →
     ∃ t, exec (.powerOn o) s = .next t ∧ t.powered = true ∧ t.starts = s.starts + 1 ∧ t.commonLevel = 5 ∧ t.journal.length = 34 ∧
       (∀ e ∈ t.journal, e.start = s.starts + 1 ∧ (e.outcome = 0 ∨ e.outcome = 1) ∧ e.method = 0) ∧
       (∀ d : Fin 14, t.dies[d].live = true ∧ t.dies[d].grant = false ∧ t.dies[d].trace = 0 ∧ t.dies[d].counter = 0) ∧
       (∀ i : Fin 8, (t.die i.val).capability = w[i] ∧ (t.die i.val).revision.toNat = w[i].toNat / 2 ^ 24) ∧
       (∀ i : Fin 2, (t.die (12 + i.val)).farBytes = min o.farBytes[i] 4000000000000) ∧
       (∀ p : Fin 16, t.partitions[p] = Partition.reset) ∧ (∀ i : Fin 256, t.acl[i] = 0) ∧ t.control = 0 ∧ t.teams = [] ∧ t.mem.cells = [] ∧
       t.owner = s.owner ∧ t.identity.isSome = true ∧ t.measured.head? = some o.firmwareDigest) ∧
   ∀ s : State, ∃ t, exec .powerLoss s = .next t ∧ t.powered = false ∧ t.journal = s.journal ∧ t.owner = s.owner ∧ t.starts = s.starts ∧
     t.outOfService = s.outOfService ∧ t.teams = [] ∧ t.launches = [] ∧ t.mem.cells = []) ∧
  (∀ (s : State) (p : Fin 16), (s.part p.val).resetting = true → (s.part p.val).resetWait = 0 →
    (s.part p.val).events.length < Config.eventDepth →
    ∃ t e, exec (.resetCompleteEvent p) s = .next t ∧ (t.part p.val).resetting = false ∧ (t.part p.val).descriptor = 0 ∧
      (t.part p.val).events = (s.part p.val).events ++ [e] ∧ e.event.code = 7 ∧
      e.event.detail = BitVec.ofNat 64 (s.part p.val).resetCount ∧ e.event.partition.toNat = p.val ∧
      s.acl.toList[(s.part p.val).descriptor.toNat / 2 ^ 48 % 256]?.map (·.setWidth 32) = some e.dest) ∧
  (∀ (s : State) (p : Fin 16), ((s.part p.val).resetting = false ∨ (s.part p.val).resetWait ≠ 0) →
    exec (.resetCompleteEvent p) s = .next s) ∧
  (∀ (s : State) (d : Fin 14) (c : MgmtCmd), (s.die d.val).resetting = some c → s.teams = [] →
    ∃ t e, exec (.dieResetComplete d) s = .next t ∧ (t.die d.val).inc = (s.die d.val).inc + 1 ∧ (t.die d.val).resetting = none ∧
      t.mem = s.mem ∧ t.answers = s.answers ++ [e] ∧ e.dest = c.source ∧ e.session = some c.port ∧ e.event.code = 9 ∧
      e.event.partition = c.partition ∧ e.event.tag = c.tag ∧ e.event.reason = 0) ∧
  (∀ (s : State) (d : Fin 14), (s.die d.val).live = true → (∀ p : Fin 16, (s.part p.val).events.length < Config.eventDepth) →
    ∃ t, exec (.thermalTrip d) s = .next t ∧ t.tripped = true ∧ (t.die d.val).lowered = true ∧ t.teams = s.teams ∧
      ∀ p : Fin 16, ∃ e, (t.part p.val).events = (s.part p.val).events ++ [e] ∧ e.event.code = 6 ∧ e.event.partition.toNat = p.val) ∧
  ∀ (s : State) (o : CheckArgs), (s.die o.die.val).live = true → o.core / 4 = o.cluster → o.core < Config.cores o.die.val →
    (∀ x ∈ s.drained, ¬ (x.die = o.die ∧ x.cluster = o.cluster)) → (∀ t ∈ s.teams, ¬ (t.die = o.die ∧ t.core / 4 = o.cluster)) →
    ∃ t x, exec (.clusterCheckDrain o) s = .next t ∧ t.drained = s.drained ++ [x] ∧ x.die = o.die ∧ x.cluster = o.cluster ∧
      t.teams = s.teams ∧ ∀ c, c / 4 = o.cluster → t.coreOpen o.die c = false

/-- R71 to R73, R99, R100, R103, R104, R247, R251, R349, R393, R401, R404 to R406: commands that write a register of the
package or of a partition do so and are answered with status 0 to their sender, on the session of their port, with their own
partition and tag; an unknown op is answered with status 0x63. The model's own choices in it: log 34, log 53. -/
def Obligations.RegisterCommands : Prop :=
  ∀ (s : State) (p : Fin 16) (d : Fin 8), s.mgmt.tail.all (· == 0) = true → s.mgmt.partition = p.val → s.mgmt.die = d.val →
    (s.die d.val).live = true →
    let v := s.mgmt.operand0
    let n := s.mgmt.operand1.toNat
    let inBits := fun (mask : DWord) => v &&& ~~~mask = 0
    let writes := fun (i : Instr) (s1 : State) => exec i s = .next (s1.answer 0)
    let part := fun (f : Partition → Partition) => s.updPart p.val f
    (n < 256 → inBits 0xC0F0FFFFFFFFFFFF → writes .accessControlEntryWrite { s with acl := updV s.acl n fun _ => v }) ∧
    (inBits 0x80FFFFFFFFFFF000 → v.toNat / 2 ^ 24 % 256 ≤ 128 → v.toNat / 2 ^ 40 % 256 + v.toNat / 2 ^ 32 % 256 ≤ 256 →
      s.descriptorRefused p.val v = false → writes .partitionDescriptorWrite (part fun x => { x with descriptor := v })) ∧
    (inBits 0xFFFFFFFF → writes .partitionControlWrite { s with control := v }) ∧
    (inBits 0xFFFFFFFFF001 → writes .rootTableWrite (part fun x => { x with root := v })) ∧
    (inBits 0x01FFFFFFFFFFF01F → (v.toNat % 32 = 0 ∨ 4 ≤ v.toNat % 32 ∧ v.toNat % 32 ≤ 16) →
      writes .faultRingWrite (part fun x => { x with faultRing := v }) ∧ writes .traceRingWrite (part fun x => { x with traceRing := v })) ∧
    (v.toNat ≤ 1 → writes .swapPolicySet (part fun x =>
      { x with swapPolicy := BitVec.ofNat 8 v.toNat, swapInterval := s.mgmt.operand1 })) ∧
    (n ≤ 4096 → v.toNat % 2 ^ 20 = 0 → v.toNat < 2 ^ 57 → (∀ i ∈ s.images, ¬ (i.partition = p ∧ i.slot.isSome)) →
      writes .swapPoolSet (part fun x => { x with poolBase := v, poolSlots := n })) ∧
    (v.toNat ≤ 1 → writes .coreRetireGrantSet (s.updDie d.val fun x => { x with grant := v.getLsbD 0 })) ∧
    (1500 ≤ v.toNat → v.toNat ≤ 6000 →
      ((s.partitions.toList.filter fun x => x.descriptor.getLsbD 63).map fun x => x.descriptor.toNat / 2 ^ 12 % 4096).sum ≤
        v.toNat * 7680 / 6000 → writes .powerLimitSet
        { s with powerLimit := v.toNat, overBudget := decide (v.toNat * 7680 / 6000 < s.tokensOf s.holders) }) ∧
    writes .thermalResume { s with tripped := false, dies := s.dies.map fun (x : Die) => { x with lowered := false } } ∧
    writes .journalClear { s with journal := [] } ∧
    (inBits 0xFFFFFFFF → writes .ownerEndpointChange { s with owner := v.extractLsb' 0 32 }) ∧
    writes .dieOutOfService { s with outOfService := s.outOfService ||| BitVec.ofNat 8 (2 ^ d.val) } ∧
    exec .unknownOp s = .next (s.answer 0x63) ∧
    ∀ st, ∃ e, (s.answer st).answers = s.answers ++ [e] ∧ e.dest = s.mgmt.source ∧ e.session = some s.mgmt.port ∧ e.event.code = 9 ∧
      e.event.reason = BitVec.ofNat 8 st ∧ e.event.tag = s.mgmt.tag ∧ e.event.partition = s.mgmt.partition

/-- R103, R108, R111, R116, R118, R138, R359, R403, R406: commands that read or write memory, and those that submit work to
an engine. The model's own choices in it: log 9, log 48. -/
def Obligations.MemoryCommands : Prop :=
  ∀ (s : State) (p : Fin 16) (d : Fin 8), s.mgmt.partition = p.val →
    let v := s.mgmt.operand0
    let n := s.mgmt.operand1.toNat
    let writes := fun (i : Instr) (s1 : State) => exec i s = .next (s1.answer 0)
    let reads := fun (len : Nat) (bs : List Byte) =>
      v.toNat + len ≤ 2 ^ 57 ∧ ∃ r, s.readGlobal 12 p.val .read v.toNat len = .ok r ∧ bs = r.map (·.1)
    (s.mgmt.tail.all (· == 0) = true →
      (s.mgmt.die = d.val → (s.die d.val).live = true → v &&& ~~~0x0000FFFFFFFF0000#64 = 0 →
        let base := v.toNat / 2 ^ 32 % 2 ^ 16
        let size := v.toNat / 2 ^ 16 % 2 ^ 16
        let old := s.allocation p.val d.val
        base + size ≤ Config.scratchMiB d.val → s.allocOverlap p.val d.val base size = false →
        (∀ t ∈ s.teams, ¬ (t.partition = p ∧ t.die = d)) →
        writes .scratchpadAllocationWrite (((s.zeroScratch d.val (2 ^ 20 * base) (min (2 ^ 20 * (base + size)) old.1)).zeroScratch d.val
          (max (2 ^ 20 * base) (old.1 + old.2)) (2 ^ 20 * (base + size))).updPart p.val fun x => { x with scratch := x.scratch.set d v })) ∧
      writes .invalidateRange ((s.uncache p.val v.toNat n).serve (p, v.toNat, n)) ∧
      (∀ bs s1, reads 64 bs → s.keyed p = true → n < 256 → (s.part p.val).descriptor.toNat / 2 ^ 40 % 256 ≤ n →
        n < (s.part p.val).descriptor.toNat / 2 ^ 40 % 256 + (s.part p.val).descriptor.toNat / 2 ^ 32 % 256 →
        s.writeGlobal 12 p.val v.toNat (List.replicate 64 (0, false)) = .ok s1 →
        writes .keySlotLoad { s1 with keys := updV s1.keys n fun _ => some (BitVec.ofNat 512 (fromLE bs)) }) ∧
      (∀ bs, n ≤ 4096 → v.toNat % 8 = 0 → v.toNat < 2 ^ 57 → reads (8 * n) bs → writes .splinterPoolSet (s.updPart p.val fun x =>
        { x with splinter := (List.range n).map fun i => BitVec.ofNat 64 (fromLE ((bs.drop (8 * i)).take 8)) })) ∧
      (∀ bs s1, reads 32 bs →
        let words := (List.range 8).map fun d => (s.die d).capability
        let report := (List.range (Config.reportLength s.measured.length 8)).map
          (Config.reportByte (s.identity.getD 0) s.measured bs words s.free)
        n + report.length ≤ 2 ^ 57 →
        { s with free := s.free + 1 }.writeGlobal 12 p.val n (report.map fun b => (b, false)) = .ok s1 → writes .attestationReport s1) ∧
      (∀ bs, v.toNat % 32 = 0 → reads 32 bs →
        let le := fun (i n : Nat) => fromLE ((bs.drop i).take n)
        let r : PatchReq := { partition := p, die := 12, desc := v, object := BitVec.ofNat 64 (le 0 8), offset := le 8 4, length := le 12 4,
                              source := BitVec.ofNat 64 (le 16 8), flags := le 24 2, reserved := le 26 2 }
        writes .patchSubmit { s with patches := s.patches ++ [r] }) ∧
      ∀ c, s.counter? s.mgmt = some c → exec .counterRead s = .next (s.answerFor s.mgmt 0 c)) ∧
    ((s.mgmt.tail.drop 32).all (· == 0) = true → ∀ u : Fin 2, s.mgmt.die = 12 + u.val →
      let le := fun (i : Nat) => BitVec.ofNat 64 (fromLE ((s.mgmt.tail.drop i).take 8))
      let c : MigCmd := { op := v.toNat % 2 ^ 16, partition := v.toNat / 2 ^ 16 % 256, target := v.toNat / 2 ^ 24 % 256,
                          permissions := v.toNat / 2 ^ 32, start := s.mgmt.operand1, length := le 0, dest := le 8, completion := le 16,
                          reserved := le 24 }
      writes .migrationSubmit (let s1 := s.msg 12 (12 + u.val)
                               { s1 with migrations := s1.migrations.set u (s1.migrations[u] ++ [c]) }))

/-- R7, R81, R104, R350, R407: a partition's reset removes its teams, launches, queued packets, landings and swapped teams,
restarts its numbers, zeroes its rings, its swap policy and its allocations and begins an epoch; its root table stays. A
compute die's reset removes its teams and continuations, zeroes its scratchpad and its registers and begins an incarnation;
that of a near or far die begins. (That the descriptor stays till the reset is complete is the model's choice, log 43.) The
model's own choices in it: log 42, log 43. -/
def Obligations.ResetCommands : Prop :=
  ∀ s : State, s.mgmt.tail.all (· == 0) = true →
    (∀ p : Fin 16, s.mgmt.partition = p.val → ∃ t, exec .partitionReset s = .next t ∧
      t.teams = s.teams.filter (fun x => x.partition != p) ∧ t.launches = s.launches.filter (fun x => x.partition != p) ∧
      (∀ x ∈ t.landings, x.partition ≠ p) ∧ (∀ x ∈ t.continuations, x.partition ≠ p) ∧
      (∀ i ∈ t.images, ¬ (i.partition = p ∧ i.slot.isSome)) ∧
      (t.part p.val).epoch = (s.part p.val).epoch + 1 ∧ (t.part p.val).launchNum = 0 ∧ (t.part p.val).faultSeq = 0 ∧
      (t.part p.val).resetting = true ∧ (∀ q : Fin 16, (t.part p.val).queues[q] = []) ∧ (t.part p.val).faultRing = 0 ∧
      (t.part p.val).traceRing = 0 ∧ (t.part p.val).swapPolicy = 0 ∧ (∀ d : Fin 8, (t.part p.val).scratch[d] = 0) ∧
      (t.part p.val).root = (s.part p.val).root ∧
      (∀ q : Fin 16, q ≠ p → t.part q.val = s.part q.val)) ∧
    (∀ d : Fin 8, s.mgmt.die = d.val → (s.die d.val).live = true → (∀ x ∈ s.teams, x.die = d) → ∃ t, exec .dieReset s = .next t ∧
      t.teams = [] ∧ (t.die d.val).inc = (s.die d.val).inc + 1 ∧ (t.die d.val).curd = [] ∧ (t.die d.val).text = [] ∧
      (∀ x ∈ t.continuations, x.die ≠ d) ∧ (∀ x ∈ t.tlb, x.die.val ≠ d.val) ∧ (t.die d.val).grant = false ∧ (t.die d.val).trace = 0 ∧
      (∀ k : Fin 3, (t.die d.val).coreMap[k] = 0) ∧ (∀ p : Fin 16, (t.part p.val).scratch[d] = 0) ∧
      (∀ a, a < 2 ^ 20 * Config.scratchMiB d.val → t.byteAt none (mainAddr d.val a) = 0) ∧
      (∀ l ∈ s.launches, (∃ x ∈ s.teams, x.launch = l.id) → ∃ k ∈ t.launches, k.id = l.id ∧ k.dieReset = true)) ∧
    ∀ d : Fin 14, 8 ≤ d.val → s.mgmt.die = d.val → exec .dieReset s =
      .next (s.updDie d.val fun x => { x with resetting := some s.mgmt })

/-- R353, R367 to R369: commands on a drained cluster, whose groups resume, or end with their teams, and on a held group,
which resumes, steps one instruction or is terminated. The model's own choices in it: log 40, log 44. -/
def Obligations.HeldWork : Prop :=
  ∀ s : State, s.mgmt.tail.all (· == 0) = true →
    (∀ (d : Fin 8) (x : Drained), s.mgmt.die = d.val → (s.die d.val).live = true → s.mgmt.operand1.toNat < Config.cores d.val / 4 →
      s.drained.find? (fun x => x.die == d && x.cluster == s.mgmt.operand1.toNat) = some x →
      let there := fun (t : Team) => decide (t.die = d) && decide (t.core / 4 = x.cluster)
      let left := s.drained.filter (· != x)
      (s.mgmt.operand0 = 0 → x.inconsistent = true → exec .clusterRebuild s = .next (s.answer 1)) ∧
      (s.mgmt.operand0 = 0 → x.inconsistent = false → exec .clusterRebuild s = .next ({ s with
        drained := left
        teams := s.teams.map fun t => if there t then t.mapGroups fun g => { g with drained := false } else t }.answer 0)) ∧
      (s.mgmt.operand0 = 1 → ∃ t1, exec .clusterRelease s = .next t1 ∧ t1.drained = left ∧ t1.teams = s.teams.filter (fun t => !there t) ∧
        (∀ k ∈ t1.subs, ¬ (k.die = d ∧ k.core / 4 = x.cluster)) ∧
        ∀ l, s.launch? l.id = some l → ∃ k, t1.launch? l.id = some k ∧
          k.exited = l.exited + (s.teams.filter fun t => there t && t.launch == l.id).length ∧
          (k.failed = true ↔ l.failed = true ∨ ∃ t ∈ s.teams, there t = true ∧ t.launch = l.id ∧ ∃ g ∈ t.groups, g.drained = true))) ∧
    ∀ (p : Fin 16) (t : Team) (g : Group), s.mgmt.partition = p.val → s.named = true → s.mgmt.operand1.toNat < 2 ^ 40 →
      (s.teams.find? fun t => t.partition == p && t.lin == s.mgmt.operand1.toNat % 2 ^ 32 &&
        (match t.group? (s.mgmt.operand1.toNat / 2 ^ 32) with | some g => g.slices.any (·.dbg.isHeld) | none => false)) = some t →
      t.group? (s.mgmt.operand1.toNat / 2 ^ 32) = some g → s.calm t.uid = true →
      let mayGo := ∀ x ∈ g.slices, ∀ c, x.dbg = .held c → c = .debugStop ∨ c = .programTrap
      (s.mgmt.operand0 = 0 → mayGo → exec .debugResume s =
        .next (((s.updGroup t.uid g.num fun h => h.mapSlices fun x => match x.dbg with
          | .held .programTrap => { x.done with dbg := .none }
          | _ => { x with dbg := .none }).flagsSettled t.uid).answer 0)) ∧
      (s.mgmt.operand0 = 0 → ¬ mayGo → exec .debugResume s = .next (s.answer 0x61)) ∧
      (s.mgmt.operand0 = 1 → ∀ x, g.slices.find? (·.dbg.isHeld) = some x → exec .debugStep s =
        .next ((s.updTeam t.uid fun u => u.mapGroups fun h => h.mapSlices fun y =>
          if y.gang == x.gang && !y.exited then
            match y.dbg with
            | .held .programTrap => { y.done with dbg := .stepping }
            | .held _ | .stopped | .stopSoon => { y with dbg := .stepping }
            | _ => y
          else y).answer 0)) ∧
      (s.mgmt.operand0 = 2 → g.laneOps = [] → ∀ l, s.launch? t.launch = some l → ∃ t1 h k e, exec .debugTerminate s = .next t1 ∧
        t1.group? t.uid g.num = some h ∧ h.trapped = true ∧ (∀ y ∈ h.slices, y.exited = true) ∧ t1.launch? t.launch = some k ∧
        k.failed = true ∧ (t1.part p.val).faultSeq = (s.part p.val).faultSeq ∧ t1.answers = s.answers ++ [e] ∧ e.event.reason = 0)

/-- R141, R142: decoding what an instruction's encoding begins with gives it back, with every operand at every legal value,
and leaves the bytes after it. R141, R165: bytes that decode do so to a legal instruction, and are its encoding: no bit of
them is ignored. -/
def Obligations.EncodingsAgree : Prop :=
  (∀ (i : Instr) (rest : List Byte), i.encodable = true → i.wellFormed = true → decodeBytes (encodeBytes i ++ rest) = .ok (i, rest)) ∧
  ∀ (bs rest : List Byte) (i : Instr), decodeBytes bs = .ok (i, rest) →
    i.wellFormed = true ∧ i.encodable = true ∧ bs = encodeBytes i ++ rest

/-- Words written out from the layouts and maps of the encoding, one or more of each family, decode to the instructions they
stand for; words that the spec lists as no legal instruction decode to none. -/
def Obligations.WordsDecode : Prop :=
  let p7 : Guard := { pred := 7, neg := false }
  decodeTableWord 32 0xBF8007F8 = some (.clauseHeader ⟨0, none, none, 0⟩) ∧
  decodeTableWord 32 0x0084003C = some (.addI32 ⟨p7, 2, 0, 1⟩) ∧
  decodeTableWord 64 0x000000044082081C = some (.addI32Imm ⟨p7, 1, 1, 4⟩) ∧
  decodeTableWord 32 0x1002381C = some (.pmov ⟨p7, 1, 7⟩) ∧
  decodeTableWord 32 0x0D02107C = some (.setltI32 ⟨p7, 1, 2, 3⟩) ∧
  decodeTableWord 64 0x026880005A08101C = some (.cvt ⟨p7, .bf16, .f32, .rn, false, 4, 2⟩) ∧
  decodeTableWord 32 0b0_0_1000001_000101_000110_000010_111_0_0 = some (.swap ⟨p7, 5, 6, 2⟩) ∧
  decodeTableWord 64 (0b000000_0010_00_000_0000_000_0_000000000 * 2 ^ 32 + 0b0_1_1001000_000100_000010_000000_111_0_0) =
    some (.ld ⟨p7, .i32, .relaxed, .grp, 4, 2⟩) ∧
  decodeTableWord 64 (0b001100_010100_01_000_0_000_00000000000 * 2 ^ 32 + 0b0_1_1010000_001000_001000_000000_111_0_1) =
    some (.mma ⟨p7, true, 8, 8, 12, 20, 1⟩) ∧
  decodeTableWord 32 0b0_0_1011000_000000_000101_001000_111_0_0 = some (.deposit ⟨p7, 5, 8⟩) ∧
  decodeTableWord 64 (0xFFFFFFFF * 2 ^ 32 + 0b1_1_0011000_000100_000000_000000_00000) = some (.smovI64Imm ⟨4, 0xFFFFFFFF⟩) ∧
  decodeTableWord 64 0xFFFFFFE0D0001802 = some (.bra ⟨.nz 3, 0xFFFFFFE0⟩) ∧
  decodeTableWord 32 0b1_0_0100100_000011_000000_000000_01010 = some (.msplit ⟨3, 2, true⟩) ∧
  decodeTableWord 32 0x93803000 = some (.splane 6) ∧
  decodeTableWord 64 (0b000000_0111_11_011_0000_000_0_000000000 * 2 ^ 32 + 0b1_1_0110010_000100_001000_000110_00000) =
    some (.satom ⟨.add, .n64, .mode, .ar, .die, 4, 8, 6⟩) ∧
  decodeTableWord 32 0b1_0_0110101_000000_000011_000000_00010 = some (.waitp ⟨.gather, 3⟩) ∧
  decodeTableWord 64 0b1_1_0111000_000010_000100_000110_00000 = some (.cpin ⟨2, 4, 6⟩) ∧
  decodeTableWord 32 0b1_0_1001100_000110_000010_000000_00000 = some (.sysrd ⟨6, 2⟩) ∧
  decodeTableWord 64 (5 * 2 ^ 32 + 0b1_1_0101111_000000_000000_000000_00000) = some (.trap 5) ∧
  ∀ w ∈ [0, 0x80000000, 0x0084003D, 0x0084003E, 0x0D1E107C], decodeTableWord 32 w = none

/-- R7, R71, R73, R99, R104, R247, R251, R349, R350, R381, R392, R393, R404: what reset leaves, in memories of canonical
form. The reset epochs, trace control and swap pools are the model's choice; the rest is the spec's for a package after
bring-up. The model's own choices in it: log 2, log 3. -/
def Obligations.ResetLeaves : Prop :=
  let s := State.reset
  s.powered = true ∧ (∀ i : Fin 256, s.acl[i] = 0) ∧ s.control = 0 ∧ s.powerLimit = 6000 ∧ s.teams = [] ∧ s.launches = [] ∧
  (∀ p : Fin 16, (s.part p.val).descriptor = 0 ∧ (s.part p.val).root = 0 ∧ (s.part p.val).epoch = 0 ∧ (s.part p.val).swapPolicy = 0 ∧
    (s.part p.val).faultRing = 0 ∧ (s.part p.val).traceRing = 0 ∧ (s.part p.val).poolSlots = 0 ∧ (s.part p.val).launchNum = 0 ∧
    (s.part p.val).faultSeq = 0) ∧
  (∀ d : Fin 14, (s.die d.val).inc = 0 ∧ (s.die d.val).counter = 0 ∧ (s.die d.val).trace = 0 ∧ (s.die d.val).grant = false) ∧
  s.mem.wf = true ∧ s.ChipTidy ∧ s.named = true ∧ s.ownRecords = true ∧ s.freshOps = true

/-- The canonical form of main memory and the scratchpads is kept by every step. The canonical form of every shared memory
and spill stack, resident or saved, is kept by every step. -/
def Obligations.StepsKeepMemories : Prop :=
  (∀ s t : State, s.mem.wf = true → step s = .next t → t.mem.wf = true) ∧
  ∀ s t : State, s.ChipTidy → step s = .next t → t.ChipTidy

/-- R84, R93, R257, R355: every step keeps the names of teams, and the numbers of a team's groups and of a group's slices,
apart; that the record of a slice's deferred lanes names that slice; and that a group's operations have names that its next
one does not have. -/
def Obligations.StepsKeepNames : Prop :=
  ∀ s t : State, step s = .next t → (s.named = true → t.named = true) ∧ (s.ownRecords = true → t.ownRecords = true) ∧
    (s.freshOps = true → t.freshOps = true)

/-- R400: a package with power always has a next state; without power only bring-up is a step. -/
def Obligations.StepsAnswer : Prop :=
  ∀ s : State, (s.powered = true → ∃ t, step s = .next t) ∧
    (s.powered = false → (∀ o r, s.agenda = .event (.powerOn o) :: r → ∃ t, step s = .next t) ∧
      ((∀ o r, s.agenda ≠ .event (.powerOn o) :: r) → s.agenda ≠ [] → step s = .fault .poweredOff))

/-- R126, R165, R180: an issue opportunity of a sub-core goes to the gang that is chosen. A gang that is past its header
issues the instruction that the words at its offset decode to, after the issue is counted and joins the order of its groups;
waits that are then over end. A gang that is at a header starts its clause. The model's own choices in it: log 1, log 52. -/
def Obligations.StepsRunTheDecoded : Prop :=
  ∀ (s s2 : State) (d : Fin 8) (c : Nat) (k : Fin 4) (r : List Turn) (q : Cand) (t : Team) (l : Launch) (m : Group × Slice) (w : Word)
    (i : Instr), s.powered = true → s.agenda = .issue d c k :: r →
    let s0 := { s with agenda := r }
    (s0.sub d c k).pick (s0.ready d c k) = some q → s0.team? q.team = some t → s0.launch? t.launch = some l →
    (t.members q.gang).find? (fun m => !m.2.sdone) = some m → m.2.wordAt 0 = some w → l.hasPlane 0 = true → t.occupied q.gang = [0] →
    let gang : Cur := { team := q.team, gang := q.gang, before := t.groups }
    let s1 := { s0 with cur := gang }
    (m.2.inClause = true → m.2.nth ≤ 16 → m.2.whole 0 = true → (isJ6 w = true → t.die.val < 4) →
      decode w.toNat (m.2.extAt 0).toNat = .ok i → s1.selectorOk i = true →
      (synchronises i = true → ∀ y ∈ t.members q.gang, y.2.dbg ≠ .stopSoon) →
      let ms := (t.members q.gang).map fun y => (y.1.num, y.2.num)
      let n := if perGroupInstr i then max 1 s1.gangGroups.length else 1
      exec i ((s1.countIssues t.die t.core k n q.pos).endReport t.die t.core t.uid (ms.map (·.1))).noteIssue = .next s2 →
      step s = .next ({ ({ s2 with cur := { s2.cur with first := false } } : State).afterIssue t.uid ms with cur := {} } : State).reports) ∧
    (m.2.inClause = false → isHeader w = true → decode w.toNat 0 = .ok i → exec i s1 = .next s2 →
      step s = .next ({ s2 with cur := {} } : State).reports)
end

