-- ==== Sys2Proof/Laws/State.lean ====
section
/-! SUPPORT. What each update of a record leaves as it was: one lemma for each field and update, all true by rfl. -/

namespace Sys2Proof.Machine

/-! Updates of the state. -/

@[simp] theorem State.updTeam_powered (s : State) (u : Nat) (f : Team → Team) : (s.updTeam u f).powered = s.powered := rfl
@[simp] theorem State.updTeam_acl (s : State) (u : Nat) (f : Team → Team) : (s.updTeam u f).acl = s.acl := rfl
@[simp] theorem State.updTeam_partitions (s : State) (u : Nat) (f : Team → Team) : (s.updTeam u f).partitions = s.partitions := rfl
@[simp] theorem State.updTeam_control (s : State) (u : Nat) (f : Team → Team) : (s.updTeam u f).control = s.control := rfl
@[simp] theorem State.updTeam_dies (s : State) (u : Nat) (f : Team → Team) : (s.updTeam u f).dies = s.dies := rfl
@[simp] theorem State.updTeam_malformed (s : State) (u : Nat) (f : Team → Team) : (s.updTeam u f).malformed = s.malformed := rfl
@[simp] theorem State.updTeam_unmatched (s : State) (u : Nat) (f : Team → Team) : (s.updTeam u f).unmatched = s.unmatched := rfl
@[simp] theorem State.updTeam_keys (s : State) (u : Nat) (f : Team → Team) : (s.updTeam u f).keys = s.keys := rfl
@[simp] theorem State.updTeam_mem (s : State) (u : Nat) (f : Team → Team) : (s.updTeam u f).mem = s.mem := rfl
@[simp] theorem State.updTeam_poison (s : State) (u : Nat) (f : Team → Team) : (s.updTeam u f).poison = s.poison := rfl
@[simp] theorem State.updTeam_tags (s : State) (u : Nat) (f : Team → Team) : (s.updTeam u f).tags = s.tags := rfl
@[simp] theorem State.updTeam_tlb (s : State) (u : Nat) (f : Team → Team) : (s.updTeam u f).tlb = s.tlb := rfl
@[simp] theorem State.updTeam_objects (s : State) (u : Nat) (f : Team → Team) : (s.updTeam u f).objects = s.objects := rfl
@[simp] theorem State.updTeam_launches (s : State) (u : Nat) (f : Team → Team) : (s.updTeam u f).launches = s.launches := rfl
@[simp] theorem State.updTeam_continuations (s : State) (u : Nat) (f : Team → Team) : (s.updTeam u f).continuations = s.continuations := rfl
@[simp] theorem State.updTeam_landings (s : State) (u : Nat) (f : Team → Team) : (s.updTeam u f).landings = s.landings := rfl
@[simp] theorem State.updTeam_orphans (s : State) (u : Nat) (f : Team → Team) : (s.updTeam u f).orphans = s.orphans := rfl
@[simp] theorem State.updTeam_images (s : State) (u : Nat) (f : Team → Team) : (s.updTeam u f).images = s.images := rfl
@[simp] theorem State.updTeam_residues (s : State) (u : Nat) (f : Team → Team) : (s.updTeam u f).residues = s.residues := rfl
@[simp] theorem State.updTeam_tiles (s : State) (u : Nat) (f : Team → Team) : (s.updTeam u f).tiles = s.tiles := rfl
@[simp] theorem State.updTeam_subs (s : State) (u : Nat) (f : Team → Team) : (s.updTeam u f).subs = s.subs := rfl
@[simp] theorem State.updTeam_drained (s : State) (u : Nat) (f : Team → Team) : (s.updTeam u f).drained = s.drained := rfl
@[simp] theorem State.updTeam_served (s : State) (u : Nat) (f : Team → Team) : (s.updTeam u f).served = s.served := rfl
@[simp] theorem State.updTeam_placing (s : State) (u : Nat) (f : Team → Team) : (s.updTeam u f).placing = s.placing := rfl
@[simp] theorem State.updTeam_answers (s : State) (u : Nat) (f : Team → Team) : (s.updTeam u f).answers = s.answers := rfl
@[simp] theorem State.updTeam_commands (s : State) (u : Nat) (f : Team → Team) : (s.updTeam u f).commands = s.commands := rfl
@[simp] theorem State.updTeam_powerLimit (s : State) (u : Nat) (f : Team → Team) : (s.updTeam u f).powerLimit = s.powerLimit := rfl
@[simp] theorem State.updTeam_overBudget (s : State) (u : Nat) (f : Team → Team) : (s.updTeam u f).overBudget = s.overBudget := rfl
@[simp] theorem State.updTeam_identity (s : State) (u : Nat) (f : Team → Team) : (s.updTeam u f).identity = s.identity := rfl
@[simp] theorem State.updTeam_owner (s : State) (u : Nat) (f : Team → Team) : (s.updTeam u f).owner = s.owner := rfl
@[simp] theorem State.updTeam_journal (s : State) (u : Nat) (f : Team → Team) : (s.updTeam u f).journal = s.journal := rfl
@[simp] theorem State.updTeam_starts (s : State) (u : Nat) (f : Team → Team) : (s.updTeam u f).starts = s.starts := rfl
@[simp] theorem State.updTeam_measured (s : State) (u : Nat) (f : Team → Team) : (s.updTeam u f).measured = s.measured := rfl
@[simp] theorem State.updTeam_outOfService (s : State) (u : Nat) (f : Team → Team) : (s.updTeam u f).outOfService = s.outOfService := rfl
@[simp] theorem State.updTeam_tripped (s : State) (u : Nat) (f : Team → Team) : (s.updTeam u f).tripped = s.tripped := rfl
@[simp] theorem State.updTeam_commonLevel (s : State) (u : Nat) (f : Team → Team) : (s.updTeam u f).commonLevel = s.commonLevel := rfl
@[simp] theorem State.updTeam_migrations (s : State) (u : Nat) (f : Team → Team) : (s.updTeam u f).migrations = s.migrations := rfl
@[simp] theorem State.updTeam_patches (s : State) (u : Nat) (f : Team → Team) : (s.updTeam u f).patches = s.patches := rfl
@[simp] theorem State.updTeam_collapsing (s : State) (u : Nat) (f : Team → Team) : (s.updTeam u f).collapsing = s.collapsing := rfl
@[simp] theorem State.updTeam_replays (s : State) (u : Nat) (f : Team → Team) : (s.updTeam u f).replays = s.replays := rfl
@[simp] theorem State.updTeam_agenda (s : State) (u : Nat) (f : Team → Team) : (s.updTeam u f).agenda = s.agenda := rfl
@[simp] theorem State.updTeam_cur (s : State) (u : Nat) (f : Team → Team) : (s.updTeam u f).cur = s.cur := rfl
@[simp] theorem State.updTeam_mgmt (s : State) (u : Nat) (f : Team → Team) : (s.updTeam u f).mgmt = s.mgmt := rfl
@[simp] theorem State.updTeam_wire (s : State) (u : Nat) (f : Team → Team) : (s.updTeam u f).wire = s.wire := rfl
@[simp] theorem State.updTeam_nextUid (s : State) (u : Nat) (f : Team → Team) : (s.updTeam u f).nextUid = s.nextUid := rfl
@[simp] theorem State.updTeam_nextId (s : State) (u : Nat) (f : Team → Team) : (s.updTeam u f).nextId = s.nextId := rfl
@[simp] theorem State.updTeam_free (s : State) (u : Nat) (f : Team → Team) : (s.updTeam u f).free = s.free := rfl
@[simp] theorem State.updTeam_rot (s : State) (u : Nat) (f : Team → Team) : (s.updTeam u f).rot = s.rot := rfl
@[simp] theorem State.updDie_powered (s : State) (d : Nat) (f : Die → Die) : (s.updDie d f).powered = s.powered := rfl
@[simp] theorem State.updDie_acl (s : State) (d : Nat) (f : Die → Die) : (s.updDie d f).acl = s.acl := rfl
@[simp] theorem State.updDie_partitions (s : State) (d : Nat) (f : Die → Die) : (s.updDie d f).partitions = s.partitions := rfl
@[simp] theorem State.updDie_control (s : State) (d : Nat) (f : Die → Die) : (s.updDie d f).control = s.control := rfl
@[simp] theorem State.updDie_malformed (s : State) (d : Nat) (f : Die → Die) : (s.updDie d f).malformed = s.malformed := rfl
@[simp] theorem State.updDie_unmatched (s : State) (d : Nat) (f : Die → Die) : (s.updDie d f).unmatched = s.unmatched := rfl
@[simp] theorem State.updDie_keys (s : State) (d : Nat) (f : Die → Die) : (s.updDie d f).keys = s.keys := rfl
@[simp] theorem State.updDie_mem (s : State) (d : Nat) (f : Die → Die) : (s.updDie d f).mem = s.mem := rfl
@[simp] theorem State.updDie_poison (s : State) (d : Nat) (f : Die → Die) : (s.updDie d f).poison = s.poison := rfl
@[simp] theorem State.updDie_tags (s : State) (d : Nat) (f : Die → Die) : (s.updDie d f).tags = s.tags := rfl
@[simp] theorem State.updDie_tlb (s : State) (d : Nat) (f : Die → Die) : (s.updDie d f).tlb = s.tlb := rfl
@[simp] theorem State.updDie_objects (s : State) (d : Nat) (f : Die → Die) : (s.updDie d f).objects = s.objects := rfl
@[simp] theorem State.updDie_launches (s : State) (d : Nat) (f : Die → Die) : (s.updDie d f).launches = s.launches := rfl
@[simp] theorem State.updDie_continuations (s : State) (d : Nat) (f : Die → Die) : (s.updDie d f).continuations = s.continuations := rfl
@[simp] theorem State.updDie_teams (s : State) (d : Nat) (f : Die → Die) : (s.updDie d f).teams = s.teams := rfl
@[simp] theorem State.updDie_landings (s : State) (d : Nat) (f : Die → Die) : (s.updDie d f).landings = s.landings := rfl
@[simp] theorem State.updDie_orphans (s : State) (d : Nat) (f : Die → Die) : (s.updDie d f).orphans = s.orphans := rfl
@[simp] theorem State.updDie_images (s : State) (d : Nat) (f : Die → Die) : (s.updDie d f).images = s.images := rfl
@[simp] theorem State.updDie_residues (s : State) (d : Nat) (f : Die → Die) : (s.updDie d f).residues = s.residues := rfl
@[simp] theorem State.updDie_tiles (s : State) (d : Nat) (f : Die → Die) : (s.updDie d f).tiles = s.tiles := rfl
@[simp] theorem State.updDie_subs (s : State) (d : Nat) (f : Die → Die) : (s.updDie d f).subs = s.subs := rfl
@[simp] theorem State.updDie_drained (s : State) (d : Nat) (f : Die → Die) : (s.updDie d f).drained = s.drained := rfl
@[simp] theorem State.updDie_served (s : State) (d : Nat) (f : Die → Die) : (s.updDie d f).served = s.served := rfl
@[simp] theorem State.updDie_placing (s : State) (d : Nat) (f : Die → Die) : (s.updDie d f).placing = s.placing := rfl
@[simp] theorem State.updDie_answers (s : State) (d : Nat) (f : Die → Die) : (s.updDie d f).answers = s.answers := rfl
@[simp] theorem State.updDie_commands (s : State) (d : Nat) (f : Die → Die) : (s.updDie d f).commands = s.commands := rfl
@[simp] theorem State.updDie_powerLimit (s : State) (d : Nat) (f : Die → Die) : (s.updDie d f).powerLimit = s.powerLimit := rfl
@[simp] theorem State.updDie_overBudget (s : State) (d : Nat) (f : Die → Die) : (s.updDie d f).overBudget = s.overBudget := rfl
@[simp] theorem State.updDie_identity (s : State) (d : Nat) (f : Die → Die) : (s.updDie d f).identity = s.identity := rfl
@[simp] theorem State.updDie_owner (s : State) (d : Nat) (f : Die → Die) : (s.updDie d f).owner = s.owner := rfl
@[simp] theorem State.updDie_journal (s : State) (d : Nat) (f : Die → Die) : (s.updDie d f).journal = s.journal := rfl
@[simp] theorem State.updDie_starts (s : State) (d : Nat) (f : Die → Die) : (s.updDie d f).starts = s.starts := rfl
@[simp] theorem State.updDie_measured (s : State) (d : Nat) (f : Die → Die) : (s.updDie d f).measured = s.measured := rfl
@[simp] theorem State.updDie_outOfService (s : State) (d : Nat) (f : Die → Die) : (s.updDie d f).outOfService = s.outOfService := rfl
@[simp] theorem State.updDie_tripped (s : State) (d : Nat) (f : Die → Die) : (s.updDie d f).tripped = s.tripped := rfl
@[simp] theorem State.updDie_commonLevel (s : State) (d : Nat) (f : Die → Die) : (s.updDie d f).commonLevel = s.commonLevel := rfl
@[simp] theorem State.updDie_migrations (s : State) (d : Nat) (f : Die → Die) : (s.updDie d f).migrations = s.migrations := rfl
@[simp] theorem State.updDie_patches (s : State) (d : Nat) (f : Die → Die) : (s.updDie d f).patches = s.patches := rfl
@[simp] theorem State.updDie_collapsing (s : State) (d : Nat) (f : Die → Die) : (s.updDie d f).collapsing = s.collapsing := rfl
@[simp] theorem State.updDie_replays (s : State) (d : Nat) (f : Die → Die) : (s.updDie d f).replays = s.replays := rfl
@[simp] theorem State.updDie_agenda (s : State) (d : Nat) (f : Die → Die) : (s.updDie d f).agenda = s.agenda := rfl
@[simp] theorem State.updDie_cur (s : State) (d : Nat) (f : Die → Die) : (s.updDie d f).cur = s.cur := rfl
@[simp] theorem State.updDie_mgmt (s : State) (d : Nat) (f : Die → Die) : (s.updDie d f).mgmt = s.mgmt := rfl
@[simp] theorem State.updDie_wire (s : State) (d : Nat) (f : Die → Die) : (s.updDie d f).wire = s.wire := rfl
@[simp] theorem State.updDie_nextUid (s : State) (d : Nat) (f : Die → Die) : (s.updDie d f).nextUid = s.nextUid := rfl
@[simp] theorem State.updDie_nextId (s : State) (d : Nat) (f : Die → Die) : (s.updDie d f).nextId = s.nextId := rfl
@[simp] theorem State.updDie_free (s : State) (d : Nat) (f : Die → Die) : (s.updDie d f).free = s.free := rfl
@[simp] theorem State.updDie_rot (s : State) (d : Nat) (f : Die → Die) : (s.updDie d f).rot = s.rot := rfl
@[simp] theorem State.updPart_powered (s : State) (p : Nat) (f : Partition → Partition) : (s.updPart p f).powered = s.powered := rfl
@[simp] theorem State.updPart_acl (s : State) (p : Nat) (f : Partition → Partition) : (s.updPart p f).acl = s.acl := rfl
@[simp] theorem State.updPart_control (s : State) (p : Nat) (f : Partition → Partition) : (s.updPart p f).control = s.control := rfl
@[simp] theorem State.updPart_dies (s : State) (p : Nat) (f : Partition → Partition) : (s.updPart p f).dies = s.dies := rfl
@[simp] theorem State.updPart_malformed (s : State) (p : Nat) (f : Partition → Partition) : (s.updPart p f).malformed = s.malformed := rfl
@[simp] theorem State.updPart_unmatched (s : State) (p : Nat) (f : Partition → Partition) : (s.updPart p f).unmatched = s.unmatched := rfl
@[simp] theorem State.updPart_keys (s : State) (p : Nat) (f : Partition → Partition) : (s.updPart p f).keys = s.keys := rfl
@[simp] theorem State.updPart_mem (s : State) (p : Nat) (f : Partition → Partition) : (s.updPart p f).mem = s.mem := rfl
@[simp] theorem State.updPart_poison (s : State) (p : Nat) (f : Partition → Partition) : (s.updPart p f).poison = s.poison := rfl
@[simp] theorem State.updPart_tags (s : State) (p : Nat) (f : Partition → Partition) : (s.updPart p f).tags = s.tags := rfl
@[simp] theorem State.updPart_tlb (s : State) (p : Nat) (f : Partition → Partition) : (s.updPart p f).tlb = s.tlb := rfl
@[simp] theorem State.updPart_objects (s : State) (p : Nat) (f : Partition → Partition) : (s.updPart p f).objects = s.objects := rfl
@[simp] theorem State.updPart_launches (s : State) (p : Nat) (f : Partition → Partition) : (s.updPart p f).launches = s.launches := rfl
@[simp] theorem State.updPart_continuations (s : State) (p : Nat) (f : Partition → Partition) : (s.updPart p f).continuations = s.continuations := rfl
@[simp] theorem State.updPart_teams (s : State) (p : Nat) (f : Partition → Partition) : (s.updPart p f).teams = s.teams := rfl
@[simp] theorem State.updPart_landings (s : State) (p : Nat) (f : Partition → Partition) : (s.updPart p f).landings = s.landings := rfl
@[simp] theorem State.updPart_orphans (s : State) (p : Nat) (f : Partition → Partition) : (s.updPart p f).orphans = s.orphans := rfl
@[simp] theorem State.updPart_images (s : State) (p : Nat) (f : Partition → Partition) : (s.updPart p f).images = s.images := rfl
@[simp] theorem State.updPart_residues (s : State) (p : Nat) (f : Partition → Partition) : (s.updPart p f).residues = s.residues := rfl
@[simp] theorem State.updPart_tiles (s : State) (p : Nat) (f : Partition → Partition) : (s.updPart p f).tiles = s.tiles := rfl
@[simp] theorem State.updPart_subs (s : State) (p : Nat) (f : Partition → Partition) : (s.updPart p f).subs = s.subs := rfl
@[simp] theorem State.updPart_drained (s : State) (p : Nat) (f : Partition → Partition) : (s.updPart p f).drained = s.drained := rfl
@[simp] theorem State.updPart_served (s : State) (p : Nat) (f : Partition → Partition) : (s.updPart p f).served = s.served := rfl
@[simp] theorem State.updPart_placing (s : State) (p : Nat) (f : Partition → Partition) : (s.updPart p f).placing = s.placing := rfl
@[simp] theorem State.updPart_answers (s : State) (p : Nat) (f : Partition → Partition) : (s.updPart p f).answers = s.answers := rfl
@[simp] theorem State.updPart_commands (s : State) (p : Nat) (f : Partition → Partition) : (s.updPart p f).commands = s.commands := rfl
@[simp] theorem State.updPart_powerLimit (s : State) (p : Nat) (f : Partition → Partition) : (s.updPart p f).powerLimit = s.powerLimit := rfl
@[simp] theorem State.updPart_overBudget (s : State) (p : Nat) (f : Partition → Partition) : (s.updPart p f).overBudget = s.overBudget := rfl
@[simp] theorem State.updPart_identity (s : State) (p : Nat) (f : Partition → Partition) : (s.updPart p f).identity = s.identity := rfl
@[simp] theorem State.updPart_owner (s : State) (p : Nat) (f : Partition → Partition) : (s.updPart p f).owner = s.owner := rfl
@[simp] theorem State.updPart_journal (s : State) (p : Nat) (f : Partition → Partition) : (s.updPart p f).journal = s.journal := rfl
@[simp] theorem State.updPart_starts (s : State) (p : Nat) (f : Partition → Partition) : (s.updPart p f).starts = s.starts := rfl
@[simp] theorem State.updPart_measured (s : State) (p : Nat) (f : Partition → Partition) : (s.updPart p f).measured = s.measured := rfl
@[simp] theorem State.updPart_outOfService (s : State) (p : Nat) (f : Partition → Partition) : (s.updPart p f).outOfService = s.outOfService := rfl
@[simp] theorem State.updPart_tripped (s : State) (p : Nat) (f : Partition → Partition) : (s.updPart p f).tripped = s.tripped := rfl
@[simp] theorem State.updPart_commonLevel (s : State) (p : Nat) (f : Partition → Partition) : (s.updPart p f).commonLevel = s.commonLevel := rfl
@[simp] theorem State.updPart_migrations (s : State) (p : Nat) (f : Partition → Partition) : (s.updPart p f).migrations = s.migrations := rfl
@[simp] theorem State.updPart_patches (s : State) (p : Nat) (f : Partition → Partition) : (s.updPart p f).patches = s.patches := rfl
@[simp] theorem State.updPart_collapsing (s : State) (p : Nat) (f : Partition → Partition) : (s.updPart p f).collapsing = s.collapsing := rfl
@[simp] theorem State.updPart_replays (s : State) (p : Nat) (f : Partition → Partition) : (s.updPart p f).replays = s.replays := rfl
@[simp] theorem State.updPart_agenda (s : State) (p : Nat) (f : Partition → Partition) : (s.updPart p f).agenda = s.agenda := rfl
@[simp] theorem State.updPart_cur (s : State) (p : Nat) (f : Partition → Partition) : (s.updPart p f).cur = s.cur := rfl
@[simp] theorem State.updPart_mgmt (s : State) (p : Nat) (f : Partition → Partition) : (s.updPart p f).mgmt = s.mgmt := rfl
@[simp] theorem State.updPart_wire (s : State) (p : Nat) (f : Partition → Partition) : (s.updPart p f).wire = s.wire := rfl
@[simp] theorem State.updPart_nextUid (s : State) (p : Nat) (f : Partition → Partition) : (s.updPart p f).nextUid = s.nextUid := rfl
@[simp] theorem State.updPart_nextId (s : State) (p : Nat) (f : Partition → Partition) : (s.updPart p f).nextId = s.nextId := rfl
@[simp] theorem State.updPart_free (s : State) (p : Nat) (f : Partition → Partition) : (s.updPart p f).free = s.free := rfl
@[simp] theorem State.updPart_rot (s : State) (p : Nat) (f : Partition → Partition) : (s.updPart p f).rot = s.rot := rfl
@[simp] theorem State.updLaunch_powered (s : State) (i : Nat) (f : Launch → Launch) : (s.updLaunch i f).powered = s.powered := rfl
@[simp] theorem State.updLaunch_acl (s : State) (i : Nat) (f : Launch → Launch) : (s.updLaunch i f).acl = s.acl := rfl
@[simp] theorem State.updLaunch_partitions (s : State) (i : Nat) (f : Launch → Launch) : (s.updLaunch i f).partitions = s.partitions := rfl
@[simp] theorem State.updLaunch_control (s : State) (i : Nat) (f : Launch → Launch) : (s.updLaunch i f).control = s.control := rfl
@[simp] theorem State.updLaunch_dies (s : State) (i : Nat) (f : Launch → Launch) : (s.updLaunch i f).dies = s.dies := rfl
@[simp] theorem State.updLaunch_malformed (s : State) (i : Nat) (f : Launch → Launch) : (s.updLaunch i f).malformed = s.malformed := rfl
@[simp] theorem State.updLaunch_unmatched (s : State) (i : Nat) (f : Launch → Launch) : (s.updLaunch i f).unmatched = s.unmatched := rfl
@[simp] theorem State.updLaunch_keys (s : State) (i : Nat) (f : Launch → Launch) : (s.updLaunch i f).keys = s.keys := rfl
@[simp] theorem State.updLaunch_mem (s : State) (i : Nat) (f : Launch → Launch) : (s.updLaunch i f).mem = s.mem := rfl
@[simp] theorem State.updLaunch_poison (s : State) (i : Nat) (f : Launch → Launch) : (s.updLaunch i f).poison = s.poison := rfl
@[simp] theorem State.updLaunch_tags (s : State) (i : Nat) (f : Launch → Launch) : (s.updLaunch i f).tags = s.tags := rfl
@[simp] theorem State.updLaunch_tlb (s : State) (i : Nat) (f : Launch → Launch) : (s.updLaunch i f).tlb = s.tlb := rfl
@[simp] theorem State.updLaunch_objects (s : State) (i : Nat) (f : Launch → Launch) : (s.updLaunch i f).objects = s.objects := rfl
@[simp] theorem State.updLaunch_continuations (s : State) (i : Nat) (f : Launch → Launch) : (s.updLaunch i f).continuations = s.continuations := rfl
@[simp] theorem State.updLaunch_teams (s : State) (i : Nat) (f : Launch → Launch) : (s.updLaunch i f).teams = s.teams := rfl
@[simp] theorem State.updLaunch_landings (s : State) (i : Nat) (f : Launch → Launch) : (s.updLaunch i f).landings = s.landings := rfl
@[simp] theorem State.updLaunch_orphans (s : State) (i : Nat) (f : Launch → Launch) : (s.updLaunch i f).orphans = s.orphans := rfl
@[simp] theorem State.updLaunch_images (s : State) (i : Nat) (f : Launch → Launch) : (s.updLaunch i f).images = s.images := rfl
@[simp] theorem State.updLaunch_residues (s : State) (i : Nat) (f : Launch → Launch) : (s.updLaunch i f).residues = s.residues := rfl
@[simp] theorem State.updLaunch_tiles (s : State) (i : Nat) (f : Launch → Launch) : (s.updLaunch i f).tiles = s.tiles := rfl
@[simp] theorem State.updLaunch_subs (s : State) (i : Nat) (f : Launch → Launch) : (s.updLaunch i f).subs = s.subs := rfl
@[simp] theorem State.updLaunch_drained (s : State) (i : Nat) (f : Launch → Launch) : (s.updLaunch i f).drained = s.drained := rfl
@[simp] theorem State.updLaunch_served (s : State) (i : Nat) (f : Launch → Launch) : (s.updLaunch i f).served = s.served := rfl
@[simp] theorem State.updLaunch_placing (s : State) (i : Nat) (f : Launch → Launch) : (s.updLaunch i f).placing = s.placing := rfl
@[simp] theorem State.updLaunch_answers (s : State) (i : Nat) (f : Launch → Launch) : (s.updLaunch i f).answers = s.answers := rfl
@[simp] theorem State.updLaunch_commands (s : State) (i : Nat) (f : Launch → Launch) : (s.updLaunch i f).commands = s.commands := rfl
@[simp] theorem State.updLaunch_powerLimit (s : State) (i : Nat) (f : Launch → Launch) : (s.updLaunch i f).powerLimit = s.powerLimit := rfl
@[simp] theorem State.updLaunch_overBudget (s : State) (i : Nat) (f : Launch → Launch) : (s.updLaunch i f).overBudget = s.overBudget := rfl
@[simp] theorem State.updLaunch_identity (s : State) (i : Nat) (f : Launch → Launch) : (s.updLaunch i f).identity = s.identity := rfl
@[simp] theorem State.updLaunch_owner (s : State) (i : Nat) (f : Launch → Launch) : (s.updLaunch i f).owner = s.owner := rfl
@[simp] theorem State.updLaunch_journal (s : State) (i : Nat) (f : Launch → Launch) : (s.updLaunch i f).journal = s.journal := rfl
@[simp] theorem State.updLaunch_starts (s : State) (i : Nat) (f : Launch → Launch) : (s.updLaunch i f).starts = s.starts := rfl
@[simp] theorem State.updLaunch_measured (s : State) (i : Nat) (f : Launch → Launch) : (s.updLaunch i f).measured = s.measured := rfl
@[simp] theorem State.updLaunch_outOfService (s : State) (i : Nat) (f : Launch → Launch) : (s.updLaunch i f).outOfService = s.outOfService := rfl
@[simp] theorem State.updLaunch_tripped (s : State) (i : Nat) (f : Launch → Launch) : (s.updLaunch i f).tripped = s.tripped := rfl
@[simp] theorem State.updLaunch_commonLevel (s : State) (i : Nat) (f : Launch → Launch) : (s.updLaunch i f).commonLevel = s.commonLevel := rfl
@[simp] theorem State.updLaunch_migrations (s : State) (i : Nat) (f : Launch → Launch) : (s.updLaunch i f).migrations = s.migrations := rfl
@[simp] theorem State.updLaunch_patches (s : State) (i : Nat) (f : Launch → Launch) : (s.updLaunch i f).patches = s.patches := rfl
@[simp] theorem State.updLaunch_collapsing (s : State) (i : Nat) (f : Launch → Launch) : (s.updLaunch i f).collapsing = s.collapsing := rfl
@[simp] theorem State.updLaunch_replays (s : State) (i : Nat) (f : Launch → Launch) : (s.updLaunch i f).replays = s.replays := rfl
@[simp] theorem State.updLaunch_agenda (s : State) (i : Nat) (f : Launch → Launch) : (s.updLaunch i f).agenda = s.agenda := rfl
@[simp] theorem State.updLaunch_cur (s : State) (i : Nat) (f : Launch → Launch) : (s.updLaunch i f).cur = s.cur := rfl
@[simp] theorem State.updLaunch_mgmt (s : State) (i : Nat) (f : Launch → Launch) : (s.updLaunch i f).mgmt = s.mgmt := rfl
@[simp] theorem State.updLaunch_wire (s : State) (i : Nat) (f : Launch → Launch) : (s.updLaunch i f).wire = s.wire := rfl
@[simp] theorem State.updLaunch_nextUid (s : State) (i : Nat) (f : Launch → Launch) : (s.updLaunch i f).nextUid = s.nextUid := rfl
@[simp] theorem State.updLaunch_nextId (s : State) (i : Nat) (f : Launch → Launch) : (s.updLaunch i f).nextId = s.nextId := rfl
@[simp] theorem State.updLaunch_free (s : State) (i : Nat) (f : Launch → Launch) : (s.updLaunch i f).free = s.free := rfl
@[simp] theorem State.updLaunch_rot (s : State) (i : Nat) (f : Launch → Launch) : (s.updLaunch i f).rot = s.rot := rfl
@[simp] theorem State.mapGang_powered (s : State) (f : Group → Slice → Slice) : (s.mapGang f).powered = s.powered := rfl
@[simp] theorem State.mapGang_acl (s : State) (f : Group → Slice → Slice) : (s.mapGang f).acl = s.acl := rfl
@[simp] theorem State.mapGang_partitions (s : State) (f : Group → Slice → Slice) : (s.mapGang f).partitions = s.partitions := rfl
@[simp] theorem State.mapGang_control (s : State) (f : Group → Slice → Slice) : (s.mapGang f).control = s.control := rfl
@[simp] theorem State.mapGang_dies (s : State) (f : Group → Slice → Slice) : (s.mapGang f).dies = s.dies := rfl
@[simp] theorem State.mapGang_malformed (s : State) (f : Group → Slice → Slice) : (s.mapGang f).malformed = s.malformed := rfl
@[simp] theorem State.mapGang_unmatched (s : State) (f : Group → Slice → Slice) : (s.mapGang f).unmatched = s.unmatched := rfl
@[simp] theorem State.mapGang_keys (s : State) (f : Group → Slice → Slice) : (s.mapGang f).keys = s.keys := rfl
@[simp] theorem State.mapGang_mem (s : State) (f : Group → Slice → Slice) : (s.mapGang f).mem = s.mem := rfl
@[simp] theorem State.mapGang_poison (s : State) (f : Group → Slice → Slice) : (s.mapGang f).poison = s.poison := rfl
@[simp] theorem State.mapGang_tags (s : State) (f : Group → Slice → Slice) : (s.mapGang f).tags = s.tags := rfl
@[simp] theorem State.mapGang_tlb (s : State) (f : Group → Slice → Slice) : (s.mapGang f).tlb = s.tlb := rfl
@[simp] theorem State.mapGang_objects (s : State) (f : Group → Slice → Slice) : (s.mapGang f).objects = s.objects := rfl
@[simp] theorem State.mapGang_launches (s : State) (f : Group → Slice → Slice) : (s.mapGang f).launches = s.launches := rfl
@[simp] theorem State.mapGang_continuations (s : State) (f : Group → Slice → Slice) : (s.mapGang f).continuations = s.continuations := rfl
@[simp] theorem State.mapGang_landings (s : State) (f : Group → Slice → Slice) : (s.mapGang f).landings = s.landings := rfl
@[simp] theorem State.mapGang_orphans (s : State) (f : Group → Slice → Slice) : (s.mapGang f).orphans = s.orphans := rfl
@[simp] theorem State.mapGang_images (s : State) (f : Group → Slice → Slice) : (s.mapGang f).images = s.images := rfl
@[simp] theorem State.mapGang_residues (s : State) (f : Group → Slice → Slice) : (s.mapGang f).residues = s.residues := rfl
@[simp] theorem State.mapGang_tiles (s : State) (f : Group → Slice → Slice) : (s.mapGang f).tiles = s.tiles := rfl
@[simp] theorem State.mapGang_subs (s : State) (f : Group → Slice → Slice) : (s.mapGang f).subs = s.subs := rfl
@[simp] theorem State.mapGang_drained (s : State) (f : Group → Slice → Slice) : (s.mapGang f).drained = s.drained := rfl
@[simp] theorem State.mapGang_served (s : State) (f : Group → Slice → Slice) : (s.mapGang f).served = s.served := rfl
@[simp] theorem State.mapGang_placing (s : State) (f : Group → Slice → Slice) : (s.mapGang f).placing = s.placing := rfl
@[simp] theorem State.mapGang_answers (s : State) (f : Group → Slice → Slice) : (s.mapGang f).answers = s.answers := rfl
@[simp] theorem State.mapGang_commands (s : State) (f : Group → Slice → Slice) : (s.mapGang f).commands = s.commands := rfl
@[simp] theorem State.mapGang_powerLimit (s : State) (f : Group → Slice → Slice) : (s.mapGang f).powerLimit = s.powerLimit := rfl
@[simp] theorem State.mapGang_overBudget (s : State) (f : Group → Slice → Slice) : (s.mapGang f).overBudget = s.overBudget := rfl
@[simp] theorem State.mapGang_identity (s : State) (f : Group → Slice → Slice) : (s.mapGang f).identity = s.identity := rfl
@[simp] theorem State.mapGang_owner (s : State) (f : Group → Slice → Slice) : (s.mapGang f).owner = s.owner := rfl
@[simp] theorem State.mapGang_journal (s : State) (f : Group → Slice → Slice) : (s.mapGang f).journal = s.journal := rfl
@[simp] theorem State.mapGang_starts (s : State) (f : Group → Slice → Slice) : (s.mapGang f).starts = s.starts := rfl
@[simp] theorem State.mapGang_measured (s : State) (f : Group → Slice → Slice) : (s.mapGang f).measured = s.measured := rfl
@[simp] theorem State.mapGang_outOfService (s : State) (f : Group → Slice → Slice) : (s.mapGang f).outOfService = s.outOfService := rfl
@[simp] theorem State.mapGang_tripped (s : State) (f : Group → Slice → Slice) : (s.mapGang f).tripped = s.tripped := rfl
@[simp] theorem State.mapGang_commonLevel (s : State) (f : Group → Slice → Slice) : (s.mapGang f).commonLevel = s.commonLevel := rfl
@[simp] theorem State.mapGang_migrations (s : State) (f : Group → Slice → Slice) : (s.mapGang f).migrations = s.migrations := rfl
@[simp] theorem State.mapGang_patches (s : State) (f : Group → Slice → Slice) : (s.mapGang f).patches = s.patches := rfl
@[simp] theorem State.mapGang_collapsing (s : State) (f : Group → Slice → Slice) : (s.mapGang f).collapsing = s.collapsing := rfl
@[simp] theorem State.mapGang_replays (s : State) (f : Group → Slice → Slice) : (s.mapGang f).replays = s.replays := rfl
@[simp] theorem State.mapGang_agenda (s : State) (f : Group → Slice → Slice) : (s.mapGang f).agenda = s.agenda := rfl
@[simp] theorem State.mapGang_cur (s : State) (f : Group → Slice → Slice) : (s.mapGang f).cur = s.cur := rfl
@[simp] theorem State.mapGang_mgmt (s : State) (f : Group → Slice → Slice) : (s.mapGang f).mgmt = s.mgmt := rfl
@[simp] theorem State.mapGang_wire (s : State) (f : Group → Slice → Slice) : (s.mapGang f).wire = s.wire := rfl
@[simp] theorem State.mapGang_nextUid (s : State) (f : Group → Slice → Slice) : (s.mapGang f).nextUid = s.nextUid := rfl
@[simp] theorem State.mapGang_nextId (s : State) (f : Group → Slice → Slice) : (s.mapGang f).nextId = s.nextId := rfl
@[simp] theorem State.mapGang_free (s : State) (f : Group → Slice → Slice) : (s.mapGang f).free = s.free := rfl
@[simp] theorem State.mapGang_rot (s : State) (f : Group → Slice → Slice) : (s.mapGang f).rot = s.rot := rfl

/-! Updates of a team. -/

@[simp] theorem Team.mapGroups_uid (t : Team) (f : Group → Group) : (t.mapGroups f).uid = t.uid := rfl
@[simp] theorem Team.mapGroups_launch (t : Team) (f : Group → Group) : (t.mapGroups f).launch = t.launch := rfl
@[simp] theorem Team.mapGroups_partition (t : Team) (f : Group → Group) : (t.mapGroups f).partition = t.partition := rfl
@[simp] theorem Team.mapGroups_die (t : Team) (f : Group → Group) : (t.mapGroups f).die = t.die := rfl
@[simp] theorem Team.mapGroups_core (t : Team) (f : Group → Group) : (t.mapGroups f).core = t.core := rfl
@[simp] theorem Team.mapGroups_lin (t : Team) (f : Group → Group) : (t.mapGroups f).lin = t.lin := rfl
@[simp] theorem Team.mapGroups_x (t : Team) (f : Group → Group) : (t.mapGroups f).x = t.x := rfl
@[simp] theorem Team.mapGroups_y (t : Team) (f : Group → Group) : (t.mapGroups f).y = t.y := rfl
@[simp] theorem Team.mapGroups_z (t : Team) (f : Group → Group) : (t.mapGroups f).z = t.z := rfl
@[simp] theorem Team.mapGroups_shared (t : Team) (f : Group → Group) : (t.mapGroups f).shared = t.shared := rfl
@[simp] theorem Team.mapGroups_sharedPoison (t : Team) (f : Group → Group) : (t.mapGroups f).sharedPoison = t.sharedPoison := rfl
@[simp] theorem Team.mapGroups_barriers (t : Team) (f : Group → Group) : (t.mapGroups f).barriers = t.barriers := rfl
@[simp] theorem Team.mapGroups_streams (t : Team) (f : Group → Group) : (t.mapGroups f).streams = t.streams := rfl
@[simp] theorem Team.mapGroups_tokens (t : Team) (f : Group → Group) : (t.mapGroups f).tokens = t.tokens := rfl
@[simp] theorem Team.mapGroups_nextGang (t : Team) (f : Group → Group) : (t.mapGroups f).nextGang = t.nextGang := rfl
@[simp] theorem Team.mapGroups_frozen (t : Team) (f : Group → Group) : (t.mapGroups f).frozen = t.frozen := rfl
@[simp] theorem Team.updGroup_uid (t : Team) (n : Nat) (f : Group → Group) : (t.updGroup n f).uid = t.uid := rfl
@[simp] theorem Team.updGroup_launch (t : Team) (n : Nat) (f : Group → Group) : (t.updGroup n f).launch = t.launch := rfl
@[simp] theorem Team.updGroup_partition (t : Team) (n : Nat) (f : Group → Group) : (t.updGroup n f).partition = t.partition := rfl
@[simp] theorem Team.updGroup_die (t : Team) (n : Nat) (f : Group → Group) : (t.updGroup n f).die = t.die := rfl
@[simp] theorem Team.updGroup_core (t : Team) (n : Nat) (f : Group → Group) : (t.updGroup n f).core = t.core := rfl
@[simp] theorem Team.updGroup_lin (t : Team) (n : Nat) (f : Group → Group) : (t.updGroup n f).lin = t.lin := rfl
@[simp] theorem Team.updGroup_x (t : Team) (n : Nat) (f : Group → Group) : (t.updGroup n f).x = t.x := rfl
@[simp] theorem Team.updGroup_y (t : Team) (n : Nat) (f : Group → Group) : (t.updGroup n f).y = t.y := rfl
@[simp] theorem Team.updGroup_z (t : Team) (n : Nat) (f : Group → Group) : (t.updGroup n f).z = t.z := rfl
@[simp] theorem Team.updGroup_shared (t : Team) (n : Nat) (f : Group → Group) : (t.updGroup n f).shared = t.shared := rfl
@[simp] theorem Team.updGroup_sharedPoison (t : Team) (n : Nat) (f : Group → Group) : (t.updGroup n f).sharedPoison = t.sharedPoison := rfl
@[simp] theorem Team.updGroup_barriers (t : Team) (n : Nat) (f : Group → Group) : (t.updGroup n f).barriers = t.barriers := rfl
@[simp] theorem Team.updGroup_streams (t : Team) (n : Nat) (f : Group → Group) : (t.updGroup n f).streams = t.streams := rfl
@[simp] theorem Team.updGroup_tokens (t : Team) (n : Nat) (f : Group → Group) : (t.updGroup n f).tokens = t.tokens := rfl
@[simp] theorem Team.updGroup_nextGang (t : Team) (n : Nat) (f : Group → Group) : (t.updGroup n f).nextGang = t.nextGang := rfl
@[simp] theorem Team.updGroup_frozen (t : Team) (n : Nat) (f : Group → Group) : (t.updGroup n f).frozen = t.frozen := rfl
@[simp] theorem Team.mapGang_uid (t : Team) (q : Nat) (f : Group → Slice → Slice) : (t.mapGang q f).uid = t.uid := rfl
@[simp] theorem Team.mapGang_launch (t : Team) (q : Nat) (f : Group → Slice → Slice) : (t.mapGang q f).launch = t.launch := rfl
@[simp] theorem Team.mapGang_partition (t : Team) (q : Nat) (f : Group → Slice → Slice) : (t.mapGang q f).partition = t.partition := rfl
@[simp] theorem Team.mapGang_die (t : Team) (q : Nat) (f : Group → Slice → Slice) : (t.mapGang q f).die = t.die := rfl
@[simp] theorem Team.mapGang_core (t : Team) (q : Nat) (f : Group → Slice → Slice) : (t.mapGang q f).core = t.core := rfl
@[simp] theorem Team.mapGang_lin (t : Team) (q : Nat) (f : Group → Slice → Slice) : (t.mapGang q f).lin = t.lin := rfl
@[simp] theorem Team.mapGang_x (t : Team) (q : Nat) (f : Group → Slice → Slice) : (t.mapGang q f).x = t.x := rfl
@[simp] theorem Team.mapGang_y (t : Team) (q : Nat) (f : Group → Slice → Slice) : (t.mapGang q f).y = t.y := rfl
@[simp] theorem Team.mapGang_z (t : Team) (q : Nat) (f : Group → Slice → Slice) : (t.mapGang q f).z = t.z := rfl
@[simp] theorem Team.mapGang_shared (t : Team) (q : Nat) (f : Group → Slice → Slice) : (t.mapGang q f).shared = t.shared := rfl
@[simp] theorem Team.mapGang_sharedPoison (t : Team) (q : Nat) (f : Group → Slice → Slice) : (t.mapGang q f).sharedPoison = t.sharedPoison := rfl
@[simp] theorem Team.mapGang_barriers (t : Team) (q : Nat) (f : Group → Slice → Slice) : (t.mapGang q f).barriers = t.barriers := rfl
@[simp] theorem Team.mapGang_streams (t : Team) (q : Nat) (f : Group → Slice → Slice) : (t.mapGang q f).streams = t.streams := rfl
@[simp] theorem Team.mapGang_tokens (t : Team) (q : Nat) (f : Group → Slice → Slice) : (t.mapGang q f).tokens = t.tokens := rfl
@[simp] theorem Team.mapGang_nextGang (t : Team) (q : Nat) (f : Group → Slice → Slice) : (t.mapGang q f).nextGang = t.nextGang := rfl
@[simp] theorem Team.mapGang_frozen (t : Team) (q : Nat) (f : Group → Slice → Slice) : (t.mapGang q f).frozen = t.frozen := rfl

/-! Updates of a group. -/

@[simp] theorem Group.mapSlices_num (g : Group) (f : Slice → Slice) : (g.mapSlices f).num = g.num := rfl
@[simp] theorem Group.mapSlices_consumer (g : Group) (f : Slice → Slice) : (g.mapSlices f).consumer = g.consumer := rfl
@[simp] theorem Group.mapSlices_width (g : Group) (f : Slice → Slice) : (g.mapSlices f).width = g.width := rfl
@[simp] theorem Group.mapSlices_budget (g : Group) (f : Slice → Slice) : (g.mapSlices f).budget = g.budget := rfl
@[simp] theorem Group.mapSlices_place (g : Group) (f : Slice → Slice) : (g.mapSlices f).place = g.place := rfl
@[simp] theorem Group.mapSlices_mode (g : Group) (f : Slice → Slice) : (g.mapSlices f).mode = g.mode := rfl
@[simp] theorem Group.mapSlices_vat (g : Group) (f : Slice → Slice) : (g.mapSlices f).vat = g.vat := rfl
@[simp] theorem Group.mapSlices_ops (g : Group) (f : Slice → Slice) : (g.mapSlices f).ops = g.ops := rfl
@[simp] theorem Group.mapSlices_nextOp (g : Group) (f : Slice → Slice) : (g.mapSlices f).nextOp = g.nextOp := rfl
@[simp] theorem Group.mapSlices_issued (g : Group) (f : Slice → Slice) : (g.mapSlices f).issued = g.issued := rfl
@[simp] theorem Group.mapSlices_faulted (g : Group) (f : Slice → Slice) : (g.mapSlices f).faulted = g.faulted := rfl
@[simp] theorem Group.mapSlices_stack (g : Group) (f : Slice → Slice) : (g.mapSlices f).stack = g.stack := rfl
@[simp] theorem Group.mapSlices_stackPoison (g : Group) (f : Slice → Slice) : (g.mapSlices f).stackPoison = g.stackPoison := rfl
@[simp] theorem Group.mapSlices_keep (g : Group) (f : Slice → Slice) : (g.mapSlices f).keep = g.keep := rfl
@[simp] theorem Group.mapSlices_keepSeen (g : Group) (f : Slice → Slice) : (g.mapSlices f).keepSeen = g.keepSeen := rfl
@[simp] theorem Group.mapSlices_started (g : Group) (f : Slice → Slice) : (g.mapSlices f).started = g.started := rfl
@[simp] theorem Group.mapSlices_trapped (g : Group) (f : Slice → Slice) : (g.mapSlices f).trapped = g.trapped := rfl
@[simp] theorem Group.mapSlices_ended (g : Group) (f : Slice → Slice) : (g.mapSlices f).ended = g.ended := rfl
@[simp] theorem Group.mapSlices_drained (g : Group) (f : Slice → Slice) : (g.mapSlices f).drained = g.drained := rfl
@[simp] theorem Group.updSlice_num (g : Group) (n : Nat) (f : Slice → Slice) : (g.updSlice n f).num = g.num := rfl
@[simp] theorem Group.updSlice_consumer (g : Group) (n : Nat) (f : Slice → Slice) : (g.updSlice n f).consumer = g.consumer := rfl
@[simp] theorem Group.updSlice_width (g : Group) (n : Nat) (f : Slice → Slice) : (g.updSlice n f).width = g.width := rfl
@[simp] theorem Group.updSlice_budget (g : Group) (n : Nat) (f : Slice → Slice) : (g.updSlice n f).budget = g.budget := rfl
@[simp] theorem Group.updSlice_place (g : Group) (n : Nat) (f : Slice → Slice) : (g.updSlice n f).place = g.place := rfl
@[simp] theorem Group.updSlice_mode (g : Group) (n : Nat) (f : Slice → Slice) : (g.updSlice n f).mode = g.mode := rfl
@[simp] theorem Group.updSlice_vat (g : Group) (n : Nat) (f : Slice → Slice) : (g.updSlice n f).vat = g.vat := rfl
@[simp] theorem Group.updSlice_ops (g : Group) (n : Nat) (f : Slice → Slice) : (g.updSlice n f).ops = g.ops := rfl
@[simp] theorem Group.updSlice_nextOp (g : Group) (n : Nat) (f : Slice → Slice) : (g.updSlice n f).nextOp = g.nextOp := rfl
@[simp] theorem Group.updSlice_issued (g : Group) (n : Nat) (f : Slice → Slice) : (g.updSlice n f).issued = g.issued := rfl
@[simp] theorem Group.updSlice_faulted (g : Group) (n : Nat) (f : Slice → Slice) : (g.updSlice n f).faulted = g.faulted := rfl
@[simp] theorem Group.updSlice_stack (g : Group) (n : Nat) (f : Slice → Slice) : (g.updSlice n f).stack = g.stack := rfl
@[simp] theorem Group.updSlice_stackPoison (g : Group) (n : Nat) (f : Slice → Slice) : (g.updSlice n f).stackPoison = g.stackPoison := rfl
@[simp] theorem Group.updSlice_keep (g : Group) (n : Nat) (f : Slice → Slice) : (g.updSlice n f).keep = g.keep := rfl
@[simp] theorem Group.updSlice_keepSeen (g : Group) (n : Nat) (f : Slice → Slice) : (g.updSlice n f).keepSeen = g.keepSeen := rfl
@[simp] theorem Group.updSlice_started (g : Group) (n : Nat) (f : Slice → Slice) : (g.updSlice n f).started = g.started := rfl
@[simp] theorem Group.updSlice_trapped (g : Group) (n : Nat) (f : Slice → Slice) : (g.updSlice n f).trapped = g.trapped := rfl
@[simp] theorem Group.updSlice_ended (g : Group) (n : Nat) (f : Slice → Slice) : (g.updSlice n f).ended = g.ended := rfl
@[simp] theorem Group.updSlice_drained (g : Group) (n : Nat) (f : Slice → Slice) : (g.updSlice n f).drained = g.drained := rfl

/-! Updates of a slice. -/

@[simp] theorem Slice.setS_num (x : Slice) (k : SReg) (w : Word) : (x.setS k w).num = x.num := rfl
@[simp] theorem Slice.setS_offset (x : Slice) (k : SReg) (w : Word) : (x.setS k w).offset = x.offset := rfl
@[simp] theorem Slice.setS_inClause (x : Slice) (k : SReg) (w : Word) : (x.setS k w).inClause = x.inClause := rfl
@[simp] theorem Slice.setS_cbuf (x : Slice) (k : SReg) (w : Word) : (x.setS k w).cbuf = x.cbuf := rfl
@[simp] theorem Slice.setS_rflag (x : Slice) (k : SReg) (w : Word) : (x.setS k w).rflag = x.rflag := rfl
@[simp] theorem Slice.setS_sflag (x : Slice) (k : SReg) (w : Word) : (x.setS k w).sflag = x.sflag := rfl
@[simp] theorem Slice.setS_yieldHint (x : Slice) (k : SReg) (w : Word) : (x.setS k w).yieldHint = x.yieldHint := rfl
@[simp] theorem Slice.setS_em (x : Slice) (k : SReg) (w : Word) : (x.setS k w).em = x.em := rfl
@[simp] theorem Slice.setS_sg (x : Slice) (k : SReg) (w : Word) : (x.setS k w).sg = x.sg := rfl
@[simp] theorem Slice.setS_ie (x : Slice) (k : SReg) (w : Word) : (x.setS k w).ie = x.ie := rfl
@[simp] theorem Slice.setS_f (x : Slice) (k : SReg) (w : Word) : (x.setS k w).f = x.f := rfl
@[simp] theorem Slice.setS_wb (x : Slice) (k : SReg) (w : Word) : (x.setS k w).wb = x.wb := rfl
@[simp] theorem Slice.setS_lo (x : Slice) (k : SReg) (w : Word) : (x.setS k w).lo = x.lo := rfl
@[simp] theorem Slice.setS_l0 (x : Slice) (k : SReg) (w : Word) : (x.setS k w).l0 = x.l0 := rfl
@[simp] theorem Slice.setS_l1 (x : Slice) (k : SReg) (w : Word) : (x.setS k w).l1 = x.l1 := rfl
@[simp] theorem Slice.setS_l2 (x : Slice) (k : SReg) (w : Word) : (x.setS k w).l2 = x.l2 := rfl
@[simp] theorem Slice.setS_l3 (x : Slice) (k : SReg) (w : Word) : (x.setS k w).l3 = x.l3 := rfl
@[simp] theorem Slice.setS_planeNext (x : Slice) (k : SReg) (w : Word) : (x.setS k w).planeNext = x.planeNext := rfl
@[simp] theorem Slice.setS_marks (x : Slice) (k : SReg) (w : Word) : (x.setS k w).marks = x.marks := rfl
@[simp] theorem Slice.setS_gang (x : Slice) (k : SReg) (w : Word) : (x.setS k w).gang = x.gang := rfl
@[simp] theorem Slice.setS_exited (x : Slice) (k : SReg) (w : Word) : (x.setS k w).exited = x.exited := rfl
@[simp] theorem Slice.setS_hold (x : Slice) (k : SReg) (w : Word) : (x.setS k w).hold = x.hold := rfl
@[simp] theorem Slice.setS_asked (x : Slice) (k : SReg) (w : Word) : (x.setS k w).asked = x.asked := rfl
@[simp] theorem Slice.setS_dbg (x : Slice) (k : SReg) (w : Word) : (x.setS k w).dbg = x.dbg := rfl
@[simp] theorem Slice.setS_defer (x : Slice) (k : SReg) (w : Word) : (x.setS k w).defer = x.defer := rfl
@[simp] theorem Slice.setS_deferred (x : Slice) (k : SReg) (w : Word) : (x.setS k w).deferred = x.deferred := rfl
@[simp] theorem Slice.setS_dRec (x : Slice) (k : SReg) (w : Word) : (x.setS k w).dRec = x.dRec := rfl
@[simp] theorem Slice.setS_dFresh (x : Slice) (k : SReg) (w : Word) : (x.setS k w).dFresh = x.dFresh := rfl
@[simp] theorem Slice.setS_dOther (x : Slice) (k : SReg) (w : Word) : (x.setS k w).dOther = x.dOther := rfl
@[simp] theorem Slice.setS_replay (x : Slice) (k : SReg) (w : Word) : (x.setS k w).replay = x.replay := rfl
@[simp] theorem Slice.setS_sdone (x : Slice) (k : SReg) (w : Word) : (x.setS k w).sdone = x.sdone := rfl
@[simp] theorem Slice.mapLanes_num (x : Slice) (f : Fin 4 → Lane → Lane) : (x.mapLanes f).num = x.num := rfl
@[simp] theorem Slice.mapLanes_offset (x : Slice) (f : Fin 4 → Lane → Lane) : (x.mapLanes f).offset = x.offset := rfl
@[simp] theorem Slice.mapLanes_inClause (x : Slice) (f : Fin 4 → Lane → Lane) : (x.mapLanes f).inClause = x.inClause := rfl
@[simp] theorem Slice.mapLanes_cbuf (x : Slice) (f : Fin 4 → Lane → Lane) : (x.mapLanes f).cbuf = x.cbuf := rfl
@[simp] theorem Slice.mapLanes_rflag (x : Slice) (f : Fin 4 → Lane → Lane) : (x.mapLanes f).rflag = x.rflag := rfl
@[simp] theorem Slice.mapLanes_sflag (x : Slice) (f : Fin 4 → Lane → Lane) : (x.mapLanes f).sflag = x.sflag := rfl
@[simp] theorem Slice.mapLanes_yieldHint (x : Slice) (f : Fin 4 → Lane → Lane) : (x.mapLanes f).yieldHint = x.yieldHint := rfl
@[simp] theorem Slice.mapLanes_s (x : Slice) (f : Fin 4 → Lane → Lane) : (x.mapLanes f).s = x.s := rfl
@[simp] theorem Slice.mapLanes_sp (x : Slice) (f : Fin 4 → Lane → Lane) : (x.mapLanes f).sp = x.sp := rfl
@[simp] theorem Slice.mapLanes_em (x : Slice) (f : Fin 4 → Lane → Lane) : (x.mapLanes f).em = x.em := rfl
@[simp] theorem Slice.mapLanes_sg (x : Slice) (f : Fin 4 → Lane → Lane) : (x.mapLanes f).sg = x.sg := rfl
@[simp] theorem Slice.mapLanes_ie (x : Slice) (f : Fin 4 → Lane → Lane) : (x.mapLanes f).ie = x.ie := rfl
@[simp] theorem Slice.mapLanes_f (x : Slice) (f : Fin 4 → Lane → Lane) : (x.mapLanes f).f = x.f := rfl
@[simp] theorem Slice.mapLanes_wb (x : Slice) (f : Fin 4 → Lane → Lane) : (x.mapLanes f).wb = x.wb := rfl
@[simp] theorem Slice.mapLanes_lo (x : Slice) (f : Fin 4 → Lane → Lane) : (x.mapLanes f).lo = x.lo := rfl
@[simp] theorem Slice.mapLanes_planeNext (x : Slice) (f : Fin 4 → Lane → Lane) : (x.mapLanes f).planeNext = x.planeNext := rfl
@[simp] theorem Slice.mapLanes_marks (x : Slice) (f : Fin 4 → Lane → Lane) : (x.mapLanes f).marks = x.marks := rfl
@[simp] theorem Slice.mapLanes_gang (x : Slice) (f : Fin 4 → Lane → Lane) : (x.mapLanes f).gang = x.gang := rfl
@[simp] theorem Slice.mapLanes_exited (x : Slice) (f : Fin 4 → Lane → Lane) : (x.mapLanes f).exited = x.exited := rfl
@[simp] theorem Slice.mapLanes_hold (x : Slice) (f : Fin 4 → Lane → Lane) : (x.mapLanes f).hold = x.hold := rfl
@[simp] theorem Slice.mapLanes_asked (x : Slice) (f : Fin 4 → Lane → Lane) : (x.mapLanes f).asked = x.asked := rfl
@[simp] theorem Slice.mapLanes_dbg (x : Slice) (f : Fin 4 → Lane → Lane) : (x.mapLanes f).dbg = x.dbg := rfl
@[simp] theorem Slice.mapLanes_defer (x : Slice) (f : Fin 4 → Lane → Lane) : (x.mapLanes f).defer = x.defer := rfl
@[simp] theorem Slice.mapLanes_deferred (x : Slice) (f : Fin 4 → Lane → Lane) : (x.mapLanes f).deferred = x.deferred := rfl
@[simp] theorem Slice.mapLanes_dRec (x : Slice) (f : Fin 4 → Lane → Lane) : (x.mapLanes f).dRec = x.dRec := rfl
@[simp] theorem Slice.mapLanes_dFresh (x : Slice) (f : Fin 4 → Lane → Lane) : (x.mapLanes f).dFresh = x.dFresh := rfl
@[simp] theorem Slice.mapLanes_dOther (x : Slice) (f : Fin 4 → Lane → Lane) : (x.mapLanes f).dOther = x.dOther := rfl
@[simp] theorem Slice.mapLanes_replay (x : Slice) (f : Fin 4 → Lane → Lane) : (x.mapLanes f).replay = x.replay := rfl
@[simp] theorem Slice.mapLanes_sdone (x : Slice) (f : Fin 4 → Lane → Lane) : (x.mapLanes f).sdone = x.sdone := rfl
@[simp] theorem Slice.mark_num (x : Slice) (b : Nat) (p : Bool) (f : Option (Fin 12)) (rs : List Reg) : (x.mark b p f rs).num = x.num := rfl
@[simp] theorem Slice.mark_offset (x : Slice) (b : Nat) (p : Bool) (f : Option (Fin 12)) (rs : List Reg) : (x.mark b p f rs).offset = x.offset := rfl
@[simp] theorem Slice.mark_inClause (x : Slice) (b : Nat) (p : Bool) (f : Option (Fin 12)) (rs : List Reg) : (x.mark b p f rs).inClause = x.inClause := rfl
@[simp] theorem Slice.mark_cbuf (x : Slice) (b : Nat) (p : Bool) (f : Option (Fin 12)) (rs : List Reg) : (x.mark b p f rs).cbuf = x.cbuf := rfl
@[simp] theorem Slice.mark_rflag (x : Slice) (b : Nat) (p : Bool) (f : Option (Fin 12)) (rs : List Reg) : (x.mark b p f rs).rflag = x.rflag := rfl
@[simp] theorem Slice.mark_sflag (x : Slice) (b : Nat) (p : Bool) (f : Option (Fin 12)) (rs : List Reg) : (x.mark b p f rs).sflag = x.sflag := rfl
@[simp] theorem Slice.mark_yieldHint (x : Slice) (b : Nat) (p : Bool) (f : Option (Fin 12)) (rs : List Reg) : (x.mark b p f rs).yieldHint = x.yieldHint := rfl
@[simp] theorem Slice.mark_s (x : Slice) (b : Nat) (p : Bool) (f : Option (Fin 12)) (rs : List Reg) : (x.mark b p f rs).s = x.s := rfl
@[simp] theorem Slice.mark_sp (x : Slice) (b : Nat) (p : Bool) (f : Option (Fin 12)) (rs : List Reg) : (x.mark b p f rs).sp = x.sp := rfl
@[simp] theorem Slice.mark_em (x : Slice) (b : Nat) (p : Bool) (f : Option (Fin 12)) (rs : List Reg) : (x.mark b p f rs).em = x.em := rfl
@[simp] theorem Slice.mark_sg (x : Slice) (b : Nat) (p : Bool) (f : Option (Fin 12)) (rs : List Reg) : (x.mark b p f rs).sg = x.sg := rfl
@[simp] theorem Slice.mark_ie (x : Slice) (b : Nat) (p : Bool) (f : Option (Fin 12)) (rs : List Reg) : (x.mark b p f rs).ie = x.ie := rfl
@[simp] theorem Slice.mark_f (x : Slice) (b : Nat) (p : Bool) (f : Option (Fin 12)) (rs : List Reg) : (x.mark b p f rs).f = x.f := rfl
@[simp] theorem Slice.mark_wb (x : Slice) (b : Nat) (p : Bool) (f : Option (Fin 12)) (rs : List Reg) : (x.mark b p f rs).wb = x.wb := rfl
@[simp] theorem Slice.mark_lo (x : Slice) (b : Nat) (p : Bool) (f : Option (Fin 12)) (rs : List Reg) : (x.mark b p f rs).lo = x.lo := rfl
@[simp] theorem Slice.mark_l0 (x : Slice) (b : Nat) (p : Bool) (f : Option (Fin 12)) (rs : List Reg) : (x.mark b p f rs).l0 = x.l0 := rfl
@[simp] theorem Slice.mark_l1 (x : Slice) (b : Nat) (p : Bool) (f : Option (Fin 12)) (rs : List Reg) : (x.mark b p f rs).l1 = x.l1 := rfl
@[simp] theorem Slice.mark_l2 (x : Slice) (b : Nat) (p : Bool) (f : Option (Fin 12)) (rs : List Reg) : (x.mark b p f rs).l2 = x.l2 := rfl
@[simp] theorem Slice.mark_l3 (x : Slice) (b : Nat) (p : Bool) (f : Option (Fin 12)) (rs : List Reg) : (x.mark b p f rs).l3 = x.l3 := rfl
@[simp] theorem Slice.mark_planeNext (x : Slice) (b : Nat) (p : Bool) (f : Option (Fin 12)) (rs : List Reg) : (x.mark b p f rs).planeNext = x.planeNext := rfl
@[simp] theorem Slice.mark_gang (x : Slice) (b : Nat) (p : Bool) (f : Option (Fin 12)) (rs : List Reg) : (x.mark b p f rs).gang = x.gang := rfl
@[simp] theorem Slice.mark_exited (x : Slice) (b : Nat) (p : Bool) (f : Option (Fin 12)) (rs : List Reg) : (x.mark b p f rs).exited = x.exited := rfl
@[simp] theorem Slice.mark_hold (x : Slice) (b : Nat) (p : Bool) (f : Option (Fin 12)) (rs : List Reg) : (x.mark b p f rs).hold = x.hold := rfl
@[simp] theorem Slice.mark_asked (x : Slice) (b : Nat) (p : Bool) (f : Option (Fin 12)) (rs : List Reg) : (x.mark b p f rs).asked = x.asked := rfl
@[simp] theorem Slice.mark_dbg (x : Slice) (b : Nat) (p : Bool) (f : Option (Fin 12)) (rs : List Reg) : (x.mark b p f rs).dbg = x.dbg := rfl
@[simp] theorem Slice.mark_defer (x : Slice) (b : Nat) (p : Bool) (f : Option (Fin 12)) (rs : List Reg) : (x.mark b p f rs).defer = x.defer := rfl
@[simp] theorem Slice.mark_deferred (x : Slice) (b : Nat) (p : Bool) (f : Option (Fin 12)) (rs : List Reg) : (x.mark b p f rs).deferred = x.deferred := rfl
@[simp] theorem Slice.mark_dRec (x : Slice) (b : Nat) (p : Bool) (f : Option (Fin 12)) (rs : List Reg) : (x.mark b p f rs).dRec = x.dRec := rfl
@[simp] theorem Slice.mark_dFresh (x : Slice) (b : Nat) (p : Bool) (f : Option (Fin 12)) (rs : List Reg) : (x.mark b p f rs).dFresh = x.dFresh := rfl
@[simp] theorem Slice.mark_dOther (x : Slice) (b : Nat) (p : Bool) (f : Option (Fin 12)) (rs : List Reg) : (x.mark b p f rs).dOther = x.dOther := rfl
@[simp] theorem Slice.mark_replay (x : Slice) (b : Nat) (p : Bool) (f : Option (Fin 12)) (rs : List Reg) : (x.mark b p f rs).replay = x.replay := rfl
@[simp] theorem Slice.mark_sdone (x : Slice) (b : Nat) (p : Bool) (f : Option (Fin 12)) (rs : List Reg) : (x.mark b p f rs).sdone = x.sdone := rfl
@[simp] theorem Slice.fresh_num (x : Slice)  : (x.fresh).num = x.num := rfl
@[simp] theorem Slice.fresh_offset (x : Slice)  : (x.fresh).offset = x.offset := rfl
@[simp] theorem Slice.fresh_inClause (x : Slice)  : (x.fresh).inClause = x.inClause := rfl
@[simp] theorem Slice.fresh_cbuf (x : Slice)  : (x.fresh).cbuf = x.cbuf := rfl
@[simp] theorem Slice.fresh_rflag (x : Slice)  : (x.fresh).rflag = x.rflag := rfl
@[simp] theorem Slice.fresh_sflag (x : Slice)  : (x.fresh).sflag = x.sflag := rfl
@[simp] theorem Slice.fresh_yieldHint (x : Slice)  : (x.fresh).yieldHint = x.yieldHint := rfl
@[simp] theorem Slice.fresh_s (x : Slice)  : (x.fresh).s = x.s := rfl
@[simp] theorem Slice.fresh_sp (x : Slice)  : (x.fresh).sp = x.sp := rfl
@[simp] theorem Slice.fresh_em (x : Slice)  : (x.fresh).em = x.em := rfl
@[simp] theorem Slice.fresh_sg (x : Slice)  : (x.fresh).sg = x.sg := rfl
@[simp] theorem Slice.fresh_ie (x : Slice)  : (x.fresh).ie = x.ie := rfl
@[simp] theorem Slice.fresh_f (x : Slice)  : (x.fresh).f = x.f := rfl
@[simp] theorem Slice.fresh_wb (x : Slice)  : (x.fresh).wb = x.wb := rfl
@[simp] theorem Slice.fresh_lo (x : Slice)  : (x.fresh).lo = x.lo := rfl
@[simp] theorem Slice.fresh_l0 (x : Slice)  : (x.fresh).l0 = x.l0 := rfl
@[simp] theorem Slice.fresh_l1 (x : Slice)  : (x.fresh).l1 = x.l1 := rfl
@[simp] theorem Slice.fresh_l2 (x : Slice)  : (x.fresh).l2 = x.l2 := rfl
@[simp] theorem Slice.fresh_l3 (x : Slice)  : (x.fresh).l3 = x.l3 := rfl
@[simp] theorem Slice.fresh_planeNext (x : Slice)  : (x.fresh).planeNext = x.planeNext := rfl
@[simp] theorem Slice.fresh_marks (x : Slice)  : (x.fresh).marks = x.marks := rfl
@[simp] theorem Slice.fresh_gang (x : Slice)  : (x.fresh).gang = x.gang := rfl
@[simp] theorem Slice.fresh_exited (x : Slice)  : (x.fresh).exited = x.exited := rfl
@[simp] theorem Slice.fresh_asked (x : Slice)  : (x.fresh).asked = x.asked := rfl
@[simp] theorem Slice.fresh_dbg (x : Slice)  : (x.fresh).dbg = x.dbg := rfl
@[simp] theorem Slice.fresh_defer (x : Slice)  : (x.fresh).defer = x.defer := rfl
@[simp] theorem Slice.fresh_deferred (x : Slice)  : (x.fresh).deferred = x.deferred := rfl
@[simp] theorem Slice.fresh_dRec (x : Slice)  : (x.fresh).dRec = x.dRec := rfl
@[simp] theorem Slice.fresh_dOther (x : Slice)  : (x.fresh).dOther = x.dOther := rfl
@[simp] theorem Slice.fresh_replay (x : Slice)  : (x.fresh).replay = x.replay := rfl
@[simp] theorem Slice.mapLanes_l0 (x : Slice) (f : Fin 4 → Lane → Lane) : (x.mapLanes f).l0 = f 0 x.l0 := rfl
@[simp] theorem Slice.mapLanes_l1 (x : Slice) (f : Fin 4 → Lane → Lane) : (x.mapLanes f).l1 = f 1 x.l1 := rfl
@[simp] theorem Slice.mapLanes_l2 (x : Slice) (f : Fin 4 → Lane → Lane) : (x.mapLanes f).l2 = f 2 x.l2 := rfl
@[simp] theorem Slice.mapLanes_l3 (x : Slice) (f : Fin 4 → Lane → Lane) : (x.mapLanes f).l3 = f 3 x.l3 := rfl

/-! Updates of a lane. -/

@[simp] theorem Lane.put_p (l : Lane) (i : Nat) (w : Word) (p : Bool) : (l.put i w p).p = l.p := rfl
@[simp] theorem Lane.put_pl (l : Lane) (i : Nat) (w : Word) (p : Bool) : (l.put i w p).pl = l.pl := rfl

end Sys2Proof.Machine
end

