-- ==== Sys2Proof/Laws/Issue.lean ====
section
/-! SUPPORT. What the shared operations of an issuing instruction do: lookups of teams, groups and slices, the dependence check,
the lanes of a pass, the slices of a scalar instruction. -/

namespace Sys2Proof.Machine

/-! Lookups. -/

theorem find_map_key {α : Type} (p : α → Bool) (f : α → α) (h : ∀ x, p (f x) = p x) :
    ∀ l : List α, (l.map f).find? p = (l.find? p).map f
  | [] => rfl
  | x :: l => by
    simp only [List.map_cons, List.find?_cons, h]
    split
    · rfl
    · exact find_map_key p f h l

theorem State.team?_updTeam (s : State) (u v : Nat) (f : Team → Team) (h : ∀ t, (f t).uid = t.uid) :
    (s.updTeam u f).team? v = (s.team? v).map fun t => if t.uid = u then f t else t := by
  apply find_map_key
  intro t
  by_cases ht : t.uid = u <;> simp [ht, h]

theorem Team.group?_mapGroups (t : Team) (n : Nat) (f : Group → Group) (h : ∀ g, (f g).num = g.num) :
    (t.mapGroups f).group? n = (t.group? n).map f := by
  apply find_map_key
  intro g
  simp [h]

theorem Group.slice?_map (g : Group) (n : Nat) (f : Slice → Slice) (h : ∀ x, (f x).num = x.num) :
    (g.mapSlices f).slice? n = (g.slice? n).map f := by
  apply find_map_key
  intro x
  simp [h]

/-- A change of the issuing gang, slice by slice. -/
theorem State.sliceAt_mapGang (s : State) (f : Group → Slice → Slice) (h : ∀ g x, (f g x).num = x.num) (u n k : Nat) :
    (s.mapGang f).sliceAt u n k = (s.sliceAt u n k).map fun x =>
      if u = s.cur.team ∧ x.inGang s.cur.gang = true then
        (match s.group? u n with
          | some g => f g x
          | none => x)
      else x := by
  unfold State.sliceAt State.group? State.mapGang
  rw [State.team?_updTeam s s.cur.team u (·.mapGang s.cur.gang f) (fun t => rfl)]
  cases ht : s.team? u with
  | none => rfl
  | some t =>
    have hu : t.uid = u := by simpa using List.find?_some ht
    simp only [Option.map_some, Option.bind_some, hu]
    by_cases hc : u = s.cur.team
    · simp only [if_pos hc, Team.mapGang]
      rw [Team.group?_mapGroups t n (fun g => g.mapSlices fun x => if x.inGang s.cur.gang then f g x else x) (fun g => rfl)]
      cases hg : t.group? n with
      | none => rfl
      | some g =>
        simp only [Option.map_some, Option.bind_some]
        rw [Group.slice?_map g k (fun x => if x.inGang s.cur.gang then f g x else x) (fun x => by split <;> simp [h])]
        congr 1
        funext x
        by_cases hx : x.inGang s.cur.gang = true <;> simp [hx, hc]
    · simp only [hc, false_and, if_false]
      cases hg : t.group? n with
      | none => rfl
      | some g => simp

/-! The dependence check. -/

theorem Slice.dependence_none (x : Slice) (b : Nat) (rd wr : List Reg)
    (h : (rd.all (fun r => !x.marked (x.markReg b r) true) &&
      wr.all (fun r => !x.marked (x.markReg b r) true && !x.marked (x.markReg b r) false)) = true) :
    x.dependence b rd wr = none := by
  simp only [Bool.and_eq_true, List.all_eq_true] at h
  unfold Slice.dependence
  have h1 : rd.find? (fun r => x.marked (x.markReg b r) true) = none := by
    rw [List.find?_eq_none]
    intro r hr
    simpa using h.1 r hr
  have h2 : wr.find? (fun r => x.marked (x.markReg b r) true || x.marked (x.markReg b r) false) = none := by
    rw [List.find?_eq_none]
    intro r hr
    have := h.2 r hr
    simp only [Bool.not_eq_true', Bool.or_eq_true, not_or, Bool.not_eq_true] at this ⊢
    simpa using this
  rw [h1, h2]

theorem State.checked_unmarked (s : State) (rd wr : List Reg) (k : State → State) (h : s.unmarked rd wr = true) :
    s.checked rd wr k = k s := by
  unfold State.checked
  by_cases hf : s.cur.first = true
  · have hd : s.depFaults rd wr = [] := by
      unfold State.depFaults
      rw [List.filterMap_eq_nil_iff]
      intro m hm
      have hm' : (!m.2.begins || (rd.all (fun r => !m.2.marked (m.2.markReg m.1.budget r) true) &&
          wr.all fun r => !m.2.marked (m.2.markReg m.1.budget r) true && !m.2.marked (m.2.markReg m.1.budget r) false)) = true := by
        simp only [State.unmarked, hf, Bool.not_true, Bool.false_or, List.all_eq_true] at h
        exact h m hm
      by_cases hs : (m.2.sdone || m.2.isParked || m.2.isHeld) = true
      · simp [hs]
      · have hb : m.2.begins = true := by simpa [Slice.begins, and_assoc] using hs
        rw [hb, Bool.not_true, Bool.false_or] at hm'
        rw [Slice.dependence_none _ _ _ _ hm']
        simp [hs]
    simp [hf, hd]
  · simp [hf]

/-! Lanes of a pass. -/

theorem State.active_eq (s : State) (gd : Guard) (g : Group) (x : Slice) (j : Fin 4) :
    (s.cur.inPass (s.was g x) j && ((s.was g x).lane j).guard gd) = s.active gd g x j := by
  simp [State.active, Cur.inPass, Lane.guard]

theorem Slice.markReg_phys (s : State) (g : Group) (x : Slice) (k : LReg) :
    (s.was g x).phys (s.cur.source g).budget k = s.physOf g x k := rfl

/-- The outcomes of a pass whose active lanes find no poison. -/
theorem State.outcomes_clean (s : State) (gd : Guard) (rd : List Reg) (f : LaneFn) (g : Group) (x : Slice) (j : Fin 4)
    (h : (!s.active gd g x j || rd.all fun r => match r with
      | .v k => !((s.was g x).lane j).poisoned (s.physOf g x k)
      | .s _ => true) = true) :
    g.outcomes s.cur gd rd f x j =
      if s.active gd g x j then some (f (s.cur.source g) (s.was g x) j ((s.was g x).lane j)) else none := by
  unfold Group.outcomes laneOutcome
  show (if (s.cur.inPass (s.was g x) j && ((s.was g x).lane j).guard gd) = true then _ else _) = _
  rw [State.active_eq]
  by_cases ha : s.active gd g x j = true
  · simp only [ha, Bool.not_true, Bool.false_or, if_true] at h ⊢
    have hp : (s.was g x).lanePoison (s.cur.source g).budget rd ((s.was g x).lane j) = false := by
      unfold Slice.lanePoison
      rw [List.any_eq_false]
      intro r hr
      have := (List.all_eq_true.mp h) r hr
      cases r with
      | v k => simpa [Slice.markReg_phys] using this
      | s k => simp
    show some (if ((s.was g x).lanePoison (s.cur.source g).budget rd ((s.was g x).lane j)) = true then _ else _) = _
    rw [if_neg (by simp [hp])]
    rfl
  · simp only [Bool.not_eq_true] at ha
    simp [ha]

theorem Slice.deferFaults_none (x : Slice) (g : Group) (p : Fin 4) (fault : Fin 4 → Option FaultInfo)
    (h : ∀ j, fault j = none) : x.deferFaults g p fault = x := by
  unfold Slice.deferFaults
  simp [lanes4, h]

/-- The members of a gang that every slice of it accounts for. -/
theorem State.gangAll_mem {s : State} {p : Group → Slice → Bool} (h : s.gangAll p = true) {t : Team} (ht : t ∈ s.teams)
    (hu : t.uid = s.cur.team) {g : Group} (hg : g ∈ t.groups) {x : Slice} (hx : x ∈ g.slices)
    (hi : x.inGang s.cur.gang = true) : p g x = true := by
  unfold State.gangAll at h
  have h1 := List.all_eq_true.mp h t ht
  simp only [hu, bne_self_eq_false, Bool.false_or] at h1
  have h2 := List.all_eq_true.mp (List.all_eq_true.mp h1 g hg) x hx
  simpa [hi] using h2

theorem State.updTeam_congr {s : State} {u : Nat} {f f' : Team → Team}
    (h : ∀ t, t ∈ s.teams → t.uid = u → f t = f' t) : s.updTeam u f = s.updTeam u f' := by
  unfold State.updTeam
  congr 1
  apply List.map_congr_left
  intro t ht
  by_cases hu : t.uid = u
  · simp [hu, h t ht hu]
  · simp [hu]

theorem Team.mapGroups_congr {t : Team} {f f' : Group → Group} (h : ∀ g, g ∈ t.groups → f g = f' g) :
    t.mapGroups f = t.mapGroups f' := by
  unfold Team.mapGroups
  congr 1
  exact List.map_congr_left h

theorem foldl_congr_mem {α β : Type} {f f' : β → α → β} : ∀ {l : List α} {b : β},
    (∀ a, a ∈ l → ∀ b, f b a = f' b a) → l.foldl f b = l.foldl f' b
  | [], _, _ => rfl
  | a :: l, b, h => by
    simp only [List.foldl_cons, h a (by simp)]
    exact foldl_congr_mem fun c hc => h c (by simp [hc])

theorem foldl_or {w : Nat} : ∀ (l : List (BitVec w)) (e : BitVec w), l.foldl (· ||| ·) e = e ||| l.foldl (· ||| ·) 0
  | [], e => by simp
  | a :: l, e => by
    simp only [List.foldl_cons]
    rw [foldl_or l (e ||| a), foldl_or l (0 ||| a), BitVec.or_assoc]
    simp

theorem foldl_or_flatMap {α : Type} {w : Nat} (f : α → List (BitVec w)) : ∀ (l : List α) (e : BitVec w),
    (l.flatMap f).foldl (· ||| ·) e = l.foldl (fun e x => e ||| (f x).foldl (· ||| ·) 0) e
  | [], _ => rfl
  | a :: l, e => by
    simp only [List.flatMap_cons, List.foldl_append, List.foldl_cons]
    rw [foldl_or_flatMap f l, foldl_or (f a)]

/-- A fixed-latency instruction whose active lanes find no poison and do not fault. -/
theorem State.laneFixed_typed (s : State) (gd : Guard) (rd wr : List Reg) (r : Group → Slice → Fin 4 → Lane → LaneRes)
    (hu : s.unmarked rd wr = true) (hc : s.cleanLanes gd rd = true) :
    s.laneFixed gd rd wr (fun g x j l => .ok (r g x j l)) =
      s.laneTyped gd (fun g x j l => (r (s.cur.source g) (s.was g x) j ((s.was g x).lane j)).apply l)
        (fun g x j => (r (s.cur.source g) (s.was g x) j ((s.was g x).lane j)).exc) := by
  unfold State.laneFixed
  rw [State.checked_unmarked _ _ _ _ hu]
  unfold State.laneTyped
  apply State.updTeam_congr
  intro t ht htu
  apply Team.mapGroups_congr
  intro g hg
  have ho : ∀ x, x ∈ g.slices → x.inGang s.cur.gang = true → ∀ j,
      g.outcomes s.cur gd rd (fun g x j l => .ok (r g x j l)) x j =
        if s.active gd g x j then some (.ok (r (s.cur.source g) (s.was g x) j ((s.was g x).lane j))) else none := by
    intro x hx hi j
    have h := State.gangAll_mem hc ht htu hg hx hi
    apply State.outcomes_clean
    have hj : j ∈ lanes4 := by
      revert j
      decide
    exact List.all_eq_true.mp h j hj
  unfold Group.fixedPass
  have hm : g.passExc s.cur (g.outcomes s.cur gd rd fun g x j l => .ok (r g x j l)) =
      s.laneExc gd (fun g x j => (r (s.cur.source g) (s.was g x) j ((s.was g x).lane j)).exc) g := by
    unfold Group.passExc State.laneExc
    rw [foldl_or_flatMap]
    apply foldl_congr_mem
    intro x hx e
    have hs : x ∈ g.slices ∧ x.inGang s.cur.gang = true := by simpa [Group.inCur] using hx
    have h := ho x hs.1 hs.2
    congr 1
    unfold Outcomes.exc
    rw [List.foldl_map]
    apply foldl_congr_mem
    intro j _ e
    unfold Outcomes.res
    rw [h]
    by_cases ha : s.active gd g x j = true <;> simp [ha]
  simp only [hm]
  congr 1
  apply List.map_congr_left
  intro x hx
  by_cases hi : x.inGang s.cur.gang = true
  · simp only [hi, if_true]
    have h := ho x hx hi
    unfold Slice.fixedPass
    rw [Slice.deferFaults_none]
    · congr 2
      funext j l
      unfold Outcomes.res
      rw [h]
      by_cases ha : s.active gd g x j = true <;> simp [ha]
    · intro j
      unfold Outcomes.fault
      rw [h]
      by_cases ha : s.active gd g x j = true <;> simp [ha]
  · simp [hi]


theorem foldl_or_zero {α : Type} {w : Nat} : ∀ (l : List α) (f : α → BitVec w), (∀ a, a ∈ l → f a = 0) →
    (l.map f).foldl (· ||| ·) 0 = 0
  | [], _, _ => rfl
  | a :: l, f, h => by
    simp only [List.map_cons, List.foldl_cons, h a (by simp)]
    simpa using foldl_or_zero l f fun b hb => h b (by simp [hb])

theorem State.laneExc_zero (s : State) (gd : Guard) (g : Group) : s.laneExc gd (fun _ _ _ => 0) g = 0 := by
  unfold State.laneExc
  rw [show ((g.inCur s.cur).flatMap fun x => lanes4.map fun j => if s.active gd g x j = true then (0 : Exc) else 0) =
    ((g.inCur s.cur).flatMap fun _ => lanes4).map fun _ => 0 by simp [List.map_flatMap]]
  exact foldl_or_zero _ _ fun _ _ => rfl

/-- A pass without exceptions changes the slices alone. -/
theorem State.laneTyped_quiet (s : State) (gd : Guard) (w : Group → Slice → Fin 4 → Lane → Lane) :
    s.laneTyped gd w (fun _ _ _ => 0) = s.laneWrites gd w := by
  unfold State.laneTyped State.laneWrites State.mapGang
  apply State.updTeam_congr
  intro t _ _
  unfold Team.mapGang
  apply Team.mapGroups_congr
  intro g _
  rw [State.laneExc_zero]
  simp [Group.mapSlices]

/-- A fixed-latency instruction that raises no exception flag. -/
theorem State.laneFixed_writes (s : State) (gd : Guard) (rd wr : List Reg) (r : Group → Slice → Fin 4 → Lane → LaneRes)
    (hu : s.unmarked rd wr = true) (hc : s.cleanLanes gd rd = true) (hr : ∀ g x j l, (r g x j l).exc = 0) :
    s.laneFixed gd rd wr (fun g x j l => .ok (r g x j l)) =
      s.laneWrites gd fun g x j l => (r (s.cur.source g) (s.was g x) j ((s.was g x).lane j)).apply l := by
  rw [State.laneFixed_typed _ _ _ _ _ hu hc]
  simp only [hr]
  exact State.laneTyped_quiet _ _ _

end Sys2Proof.Machine
end

