-- ==== Sys2Proof/Laws/Words.lean ====
section
/-! SUPPORT. What the operations on words compute, said by numbers and by bits. -/

namespace Sys2Proof.Machine

theorem add_val (a b : Word) : a + b = BitVec.ofNat 32 (a.toNat + b.toNat) := by
  apply BitVec.eq_of_toNat_eq
  simp

theorem sub_val (a b : Word) : a - b = BitVec.ofInt 32 (a.toInt - b.toInt) := by
  apply BitVec.eq_of_toInt_eq
  simp [BitVec.toInt_sub, BitVec.toInt_ofInt]

theorem mul_val (a b : Word) : a * b = BitVec.ofInt 32 (a.toInt * b.toInt) := by
  apply BitVec.eq_of_toInt_eq
  simp [BitVec.toInt_mul, BitVec.toInt_ofInt]

theorem minS_val (a b : Word) : minS a b = if a.toInt < b.toInt then a else b := by
  simp [minS, BitVec.slt]
theorem maxS_val (a b : Word) : maxS a b = if a.toInt < b.toInt then b else a := by
  simp [maxS, BitVec.slt]
theorem minU_val (a b : Word) : minU a b = if a.toNat < b.toNat then a else b := by
  simp [minU, BitVec.ult]
theorem maxU_val (a b : Word) : maxU a b = if a.toNat < b.toNat then b else a := by
  simp [maxU, BitVec.ult]

/-- A left shift by the whole count: from 32 on nothing is left. -/
theorem shlW_val (a n : Word) : shlW a n = BitVec.ofNat 32 (a.toNat * 2 ^ n.toNat) := by
  apply BitVec.eq_of_toNat_eq
  simp [shlW, Nat.shiftLeft_eq]

theorem shrW_val (a n : Word) : shrW a n = BitVec.ofNat 32 (a.toNat / 2 ^ n.toNat) := by
  apply BitVec.eq_of_toNat_eq
  have h : a.toNat / 2 ^ n.toNat < 2 ^ 32 := Nat.lt_of_le_of_lt (Nat.div_le_self _ _) a.isLt
  simp only [shrW, BitVec.toNat_ushiftRight, Nat.shiftRight_eq_div_pow, BitVec.toNat_ofNat]
  rw [Nat.mod_eq_of_lt h]

theorem sarW_val (a n : Word) : sarW a n = BitVec.ofInt 32 (a.toInt / (2 ^ n.toNat : Nat)) := by
  apply BitVec.eq_of_toInt_eq
  simp only [sarW, BitVec.toInt_sshiftRight, BitVec.toInt_ofInt, Int.shiftRight_eq_div_pow]
  have h := BitVec.toInt_sshiftRight (x := a) (n := n.toNat)
  rw [Int.shiftRight_eq_div_pow] at h
  rw [← h, Int.bmod_eq_of_le]
  · have := BitVec.two_mul_toInt_lt (x := a.sshiftRight n.toNat)
    have := BitVec.le_two_mul_toInt (x := a.sshiftRight n.toNat)
    omega
  · have := BitVec.two_mul_toInt_lt (x := a.sshiftRight n.toNat)
    omega

theorem mulhiU_val (a b : Word) : mulhiU a b = (a.zeroExtend 64 * b.zeroExtend 64).extractLsb' 32 32 := by
  apply BitVec.eq_of_toNat_eq
  have h : a.toNat * b.toNat < 2 ^ 64 := by
    have := Nat.mul_lt_mul'' a.isLt b.isLt
    simpa using this
  simp only [mulhiU, BitVec.toNat_ofNat, BitVec.extractLsb'_toNat, BitVec.toNat_mul, BitVec.truncate_eq_setWidth,
    BitVec.toNat_setWidth, Nat.shiftRight_eq_div_pow]
  have ha := a.isLt
  have hb := b.isLt
  rw [Nat.mod_eq_of_lt (show a.toNat < 2 ^ 64 by omega), Nat.mod_eq_of_lt (show b.toNat < 2 ^ 64 by omega),
    Nat.mod_eq_of_lt h]

theorem mulhiS_val (a b : Word) : mulhiS a b = (a.signExtend 64 * b.signExtend 64).extractLsb' 32 32 := by
  have hp : a.signExtend 64 * b.signExtend 64 = BitVec.ofInt 64 (a.toInt * b.toInt) := by
    apply BitVec.eq_of_toInt_eq
    rw [BitVec.toInt_mul, BitVec.toInt_signExtend_of_le (by decide), BitVec.toInt_signExtend_of_le (by decide),
      BitVec.toInt_ofInt]
  rw [hp]
  apply BitVec.eq_of_toNat_eq
  simp only [mulhiS, BitVec.extractLsb'_toNat, BitVec.toNat_ofInt, Nat.shiftRight_eq_div_pow]
  generalize a.toInt * b.toInt = p
  omega

theorem popCount_val : ∀ n x : Nat, popCount n x = ((List.range n).filter fun i => x.testBit i).length
  | 0, _ => rfl
  | n + 1, x => by
    rw [List.range_succ_eq_map, List.filter_cons, popCount, popCount_val n (x / 2)]
    have h : ((List.map Nat.succ (List.range n)).filter fun i => x.testBit i).length =
        ((List.range n).filter fun i => (x / 2).testBit i).length := by
      rw [List.filter_map, List.length_map]
      simp [Function.comp_def, Nat.testBit_succ]
    have h0 : x.testBit 0 = decide (x % 2 = 1) := Nat.testBit_zero x
    rcases Nat.mod_two_eq_zero_or_one x with hx | hx
    · simp only [h0, hx]
      simp [h]
    · simp only [h0, hx]
      simp [h]
      omega

theorem popcW_val (a : Word) : popcW a = BitVec.ofNat 32 ((List.range 32).filter fun i => a.getLsbD i).length := by
  unfold popcW
  rw [popCount_val]
  rfl

theorem bitLen_le : ∀ n x : Nat, bitLen n x ≤ n
  | 0, _ => Nat.le_refl _
  | n + 1, x => by
    unfold bitLen
    split
    · exact Nat.le_refl _
    · exact Nat.le_succ_of_le (bitLen_le n x)

theorem bitLen_val : ∀ n x : Nat, n - bitLen n x = ((List.range n).takeWhile fun i => !x.testBit (n - 1 - i)).length
  | 0, _ => rfl
  | n + 1, x => by
    rw [List.range_succ_eq_map, List.takeWhile_cons]
    have hb : x.testBit n = decide (x / 2 ^ n % 2 = 1) := Nat.testBit_eq_decide_div_mod_eq
    unfold bitLen
    by_cases h : x / 2 ^ n % 2 = 1
    · simp [hb, h]
    · have hm : (List.map Nat.succ (List.range n)).takeWhile (fun i => !x.testBit (n + 1 - 1 - i)) =
          ((List.range n).takeWhile fun i => !x.testBit (n - 1 - i)).map Nat.succ := by
        rw [List.takeWhile_map]
        congr 1
        congr 1
        funext i
        simp only [Function.comp]
        congr 2
        omega
      have hl := bitLen_le n x
      simp only [hm, h]
      have := bitLen_val n x
      simp only [Nat.add_sub_cancel, Nat.sub_zero, hb, h, decide_false, Bool.not_false, if_true, if_false, List.length_cons,
        List.length_map]
      omega

theorem clzW_val (a : Word) :
    clzW a = BitVec.ofNat 32 ((List.range 32).takeWhile fun i => !a.getLsbD (31 - i)).length := by
  unfold clzW
  rw [bitLen_val]
  rfl

theorem revBits_lt : ∀ n x : Nat, revBits n x < 2 ^ n
  | 0, _ => by simp [revBits]
  | n + 1, x => by
    have := revBits_lt n (x / 2)
    have h2 := Nat.mod_two_eq_zero_or_one x
    unfold revBits
    rw [Nat.pow_succ]
    rcases h2 with h | h <;> rw [h] <;> omega

theorem revBits_testBit : ∀ n x i : Nat, i < n → (revBits n x).testBit i = x.testBit (n - 1 - i)
  | 0, _, _, h => absurd h (by omega)
  | n + 1, x, i, h => by
    unfold revBits
    rw [Nat.mul_comm, Nat.testBit_two_pow_mul_add _ (revBits_lt n (x / 2))]
    by_cases hi : i < n
    · rw [if_pos hi, revBits_testBit n (x / 2) i hi, ← Nat.testBit_succ]
      congr 1
      omega
    · have : i = n := by omega
      subst this
      rw [if_neg (by omega)]
      simp

theorem brevW_val (a : Word) : brevW a = a.reverse := by
  apply BitVec.eq_of_getLsbD_eq
  intro i hi
  rw [BitVec.getLsbD_reverse]
  unfold brevW
  simp only [BitVec.getLsbD_ofNat, hi, decide_true, Bool.true_and, revBits_testBit 32 a.toNat i hi, BitVec.getMsbD]
  rfl

theorem absW_val (a : Word) : absW a = BitVec.ofNat 32 a.toInt.natAbs := by
  unfold absW
  apply BitVec.eq_of_toNat_eq
  by_cases h : a.slt 0 = true
  · simp only [h, if_true, BitVec.toNat_neg, BitVec.toNat_ofNat]
    simp only [BitVec.slt, decide_eq_true_eq] at h
    have := a.isLt
    have hi := BitVec.toInt_eq_toNat_cond a
    have h0 : (0 : Word).toInt = 0 := rfl
    rw [h0] at h
    split at hi <;> omega
  · simp only [h, BitVec.toNat_ofNat]
    simp only [BitVec.slt, decide_eq_true_eq] at h
    have := a.isLt
    have hi := BitVec.toInt_eq_toNat_cond a
    have h0 : (0 : Word).toInt = 0 := rfl
    rw [h0] at h
    simp only [Bool.false_eq_true, if_false]
    split at hi <;> omega

end Sys2Proof.Machine
end

