-- ==== Sys2Proof/Laws/Lanes.lean ====
section
/-! SUPPORT. What the shared shapes of lane and scalar instructions do when the dependence check passes and no source holds
poison. -/

namespace Sys2Proof.Machine

/-! Lane instructions (R199 to R201). -/

theorem State.lane2_writes (s : State) (o : LaneR) (f : Word → Word → Word) (hu : s.unmarked [.v o.a, .v o.b] [.v o.d] = true)
    (hc : s.cleanLanes o.g [.v o.a, .v o.b] = true) :
    s.lane2 o f = s.laneWrites o.g fun g x j l => l.put (s.physOf g x o.d) (f (s.reg g x j o.a) (s.reg g x j o.b)) false :=
  State.laneFixed_writes s o.g _ _
    (fun g x _ l => { regs := [(x.phys g.budget o.d, f (l.get (x.phys g.budget o.a)) (l.get (x.phys g.budget o.b)))] })
    hu hc (fun _ _ _ _ => rfl)

theorem State.lane2i_writes (s : State) (o : LaneI) (f : Word → Word → Word) (hu : s.unmarked [.v o.a] [.v o.d] = true)
    (hc : s.cleanLanes o.g [.v o.a] = true) :
    s.lane2i o f = s.laneWrites o.g fun g x j l => l.put (s.physOf g x o.d) (f (s.reg g x j o.a) o.imm) false :=
  State.laneFixed_writes s o.g _ _ (fun g x _ l => { regs := [(x.phys g.budget o.d, f (l.get (x.phys g.budget o.a)) o.imm)] })
    hu hc (fun _ _ _ _ => rfl)

theorem State.lane1_writes (s : State) (o : LaneU) (f : Word → Word) (hu : s.unmarked [.v o.a] [.v o.d] = true)
    (hc : s.cleanLanes o.g [.v o.a] = true) :
    s.lane1 o f = s.laneWrites o.g fun g x j l => l.put (s.physOf g x o.d) (f (s.reg g x j o.a)) false :=
  State.laneFixed_writes s o.g _ _ (fun g x _ l => { regs := [(x.phys g.budget o.d, f (l.get (x.phys g.budget o.a)))] })
    hu hc (fun _ _ _ _ => rfl)

/-- An instruction that reads no lane register finds no poison. -/
theorem State.cleanLanes_nil (s : State) (gd : Guard) : s.cleanLanes gd [] = true := by
  simp [State.cleanLanes, State.gangAll]

/-! Scalar instructions (R177, R226, R227). -/

theorem State.members_of {s : State} {m : Group × Slice} (h : m ∈ s.members) :
    ∃ t, t ∈ s.teams ∧ t.uid = s.cur.team ∧ m.1 ∈ t.groups ∧ m.2 ∈ m.1.slices ∧ m.2.inGang s.cur.gang = true := by
  unfold State.members at h
  cases ht : s.team? s.cur.team with
  | none => simp [ht] at h
  | some t =>
    simp only [ht, Team.members, List.mem_flatMap, List.mem_map, List.mem_filter] at h
    obtain ⟨g, hg, x, ⟨hx, hi⟩, rfl⟩ := h
    exact ⟨t, List.mem_of_find?_eq_some ht, by simpa using List.find?_some ht, hg, hx, hi⟩

/-- A scalar instruction that no slice of the gang faults at gives every slice its result. -/
theorem State.scalar_clean (s : State) (rd wr : List Reg) (f : Group → Slice → Except FaultInfo Slice) (h : Group → Slice → Slice)
    (hu : s.unmarked rd wr = true) (hc : s.cleanScalars rd = true) (hf : ∀ g x, f g x = .ok (h g x)) :
    s.scalar rd wr f = s.mapGang h := by
  unfold State.scalar
  rw [State.checked_unmarked s rd wr _ hu]
  have hp : ∀ m ∈ s.members, m.2.scalarPoison rd = false := by
    intro m hm
    obtain ⟨t, ht, hu, hg, hx, hi⟩ := State.members_of hm
    simpa using State.gangAll_mem hc ht hu hg hx hi
  have hb : s.scalarBad rd f = [] := by
    unfold State.scalarBad
    rw [List.filterMap_eq_nil_iff]
    intro m hm
    simp [scalarOutcome, hp m hm, hf]
  unfold State.runScalar
  simp only [hb, List.isEmpty_nil, if_true]
  unfold State.mapGang
  refine State.updTeam_congr fun t ht hu => ?_
  unfold Team.mapGang
  refine Team.mapGroups_congr fun g hg => ?_
  unfold Group.mapSlices
  congr 1
  refine List.map_congr_left fun x hx => ?_
  by_cases hi : x.inGang s.cur.gang = true
  · have := State.gangAll_mem hc ht hu hg hx hi
    simp only [Bool.not_eq_true'] at this
    simp [hi, scalarOutcome, this, hf]
  · simp [hi]

theorem State.scl2_writes (s : State) (o : SclR) (f : Word → Word → Word) (hu : s.unmarked [.s o.a, .s o.b] [.s o.d] = true)
    (hc : s.cleanScalars [.s o.a, .s o.b] = true) :
    s.scl2 o f = s.mapGang fun _ x => (x.setS o.d (f (x.getS o.a) (x.getS o.b))).done :=
  State.scalar_clean s _ _ _ _ hu hc fun _ _ => rfl

theorem State.scl2i_writes (s : State) (o : SclI) (f : Word → Word → Word) (hu : s.unmarked [.s o.a] [.s o.d] = true)
    (hc : s.cleanScalars [.s o.a] = true) :
    s.scl2i o f = s.mapGang fun _ x => (x.setS o.d (f (x.getS o.a) o.imm)).done :=
  State.scalar_clean s _ _ _ _ hu hc fun _ _ => rfl

theorem State.scl1_writes (s : State) (o : SclU) (f : Word → Word) (hu : s.unmarked [.s o.a] [.s o.d] = true)
    (hc : s.cleanScalars [.s o.a] = true) :
    s.scl1 o f = s.mapGang fun _ x => (x.setS o.d (f (x.getS o.a))).done :=
  State.scalar_clean s _ _ _ _ hu hc fun _ _ => rfl

theorem State.pair2_writes (s : State) (o : SclR) (f : DWord → DWord → DWord)
    (hu : s.unmarked (sPair o.a ++ sPair o.b) (sPair o.d) = true) (hc : s.cleanScalars (sPair o.a ++ sPair o.b) = true) :
    s.pair2 o f = s.mapGang fun _ x => (x.setPair o.d (f (x.getPair o.a) (x.getPair o.b))).done :=
  State.scalar_clean s _ _ _ _ hu hc fun _ _ => rfl

theorem State.pair2i_writes (s : State) (o : SclI) (f : DWord → DWord → DWord) (hu : s.unmarked (sPair o.a) (sPair o.d) = true)
    (hc : s.cleanScalars (sPair o.a) = true) :
    s.pair2i o f = s.mapGang fun _ x => (x.setPair o.d (f (x.getPair o.a) (o.imm.signExtend 64))).done :=
  State.scalar_clean s _ _ _ _ hu hc fun _ _ => rfl

theorem State.pairShift_writes (s : State) (o : SclR) (f : DWord → Nat → DWord)
    (hu : s.unmarked (sPair o.a ++ [.s o.b]) (sPair o.d) = true) (hc : s.cleanScalars (sPair o.a ++ [.s o.b]) = true) :
    s.pairShift o f = s.mapGang fun _ x => (x.setPair o.d (f (x.getPair o.a) (x.getS o.b).toNat)).done :=
  State.scalar_clean s _ _ _ _ hu hc fun _ _ => rfl

theorem State.pairShifti_writes (s : State) (o : SclI) (f : DWord → Nat → DWord) (hu : s.unmarked (sPair o.a) (sPair o.d) = true)
    (hc : s.cleanScalars (sPair o.a) = true) :
    s.pairShifti o f = s.mapGang fun _ x => (x.setPair o.d (f (x.getPair o.a) (bits o.imm 0 6))).done :=
  State.scalar_clean s _ _ _ _ hu hc fun _ _ => rfl

end Sys2Proof.Machine
end

