-- ==== Sys2Proof/Laws/Memory.lean ====
section
/-! SUPPORT. Memory as a list of cells: every operation keeps the canonical form; a read after a write. -/

namespace Sys2Proof.Machine

theorem wfCells_mono {lo hi : Nat} (h : lo ≤ hi) : ∀ {c : List Host.Cell}, wfCells hi c = true → wfCells lo c = true
  | [], _ => rfl
  | (a, x) :: r, w => by
    simp only [wfCells, Bool.and_eq_true, decide_eq_true_eq] at w ⊢
    exact ⟨⟨Nat.le_trans h w.1.1, w.1.2⟩, w.2⟩

theorem wfCells_write {a : Nat} {x : Byte} : ∀ {lo : Nat} {c : List Host.Cell}, lo ≤ a → wfCells lo c = true →
    wfCells lo (writeCells c a x) = true
  | lo, [], h, _ => by
    by_cases hx : x = 0
    · simp only [writeCells, if_pos hx, wfCells]
    · simp only [writeCells, if_neg hx, wfCells, Bool.and_eq_true, decide_eq_true_eq, bne_iff_ne, ne_eq, and_true]
      exact ⟨h, hx⟩
  | lo, (b, y) :: r, h, w => by
    have w' := w
    simp only [wfCells, Bool.and_eq_true, decide_eq_true_eq] at w'
    unfold writeCells
    split
    · rename_i hab
      split
      · exact w
      · rename_i hx
        simp only [wfCells, Bool.and_eq_true, decide_eq_true_eq, bne_iff_ne, ne_eq]
        exact ⟨⟨h, hx⟩, ⟨hab, by simpa using w'.1.2⟩, w'.2⟩
    · split
      · rename_i hab
        subst hab
        split
        · exact wfCells_mono (Nat.le_trans h (Nat.le_succ _)) w'.2
        · rename_i hx
          simp only [wfCells, Bool.and_eq_true, decide_eq_true_eq, bne_iff_ne, ne_eq]
          exact ⟨⟨h, hx⟩, w'.2⟩
      · simp only [wfCells, Bool.and_eq_true, decide_eq_true_eq]
        exact ⟨w'.1, wfCells_write (by omega) w'.2⟩

theorem readCells_low {a : Nat} : ∀ {lo : Nat} {c : List Host.Cell}, a < lo → wfCells lo c = true → readCells c a = 0
  | _, [], _, _ => rfl
  | lo, (b, y) :: r, h, w => by
    simp only [wfCells, Bool.and_eq_true, decide_eq_true_eq] at w
    have hb : a ≠ b := by omega
    simp only [readCells, hb, if_false]
    exact readCells_low (lo := b + 1) (by omega) w.2

/-- A read after a write of one byte. -/
theorem readCells_write {a b : Nat} {x : Byte} : ∀ {lo : Nat} {c : List Host.Cell}, wfCells lo c = true →
    readCells (writeCells c a x) b = if b = a then x else readCells c b
  | _, [], _ => by
    by_cases hx : x = 0
    · simp only [writeCells, if_pos hx, readCells]
      rw [hx, ite_self]
    · simp only [writeCells, if_neg hx, readCells]
  | lo, (c, y) :: r, w => by
    simp only [wfCells, Bool.and_eq_true, decide_eq_true_eq] at w
    unfold writeCells
    split
    · rename_i hac
      split
      · rename_i hx
        by_cases hb : b = a
        · subst hb
          have : b ≠ c := by omega
          simp only [readCells, this, if_false, if_true, hx]
          exact readCells_low (lo := c + 1) (by omega) w.2
        · simp [hb]
      · by_cases hb : b = a <;> simp [readCells, hb]
    · split
      · rename_i hac
        subst hac
        split
        · rename_i hx
          by_cases hb : b = a
          · subst hb
            rw [readCells_low (lo := b + 1) (by omega) w.2]
            simp [hx]
          · simp [readCells, hb]
        · by_cases hb : b = a <;> simp [readCells, hb]
      · rename_i h1 h2
        simp only [readCells]
        by_cases hb : b = c
        · subst hb
          have : ¬ b = a := fun e => h2 e.symm
          simp [this]
        · simp only [hb, if_false]
          exact readCells_write w.2

theorem wfCells_filter {p : Host.Cell → Bool} : ∀ {lo : Nat} {c : List Host.Cell}, wfCells lo c = true →
    wfCells lo (c.filter p) = true
  | _, [], _ => rfl
  | lo, (a, x) :: r, w => by
    simp only [wfCells, Bool.and_eq_true, decide_eq_true_eq] at w
    have h := wfCells_filter (p := p) w.2
    by_cases hp : p (a, x) = true
    · simp only [List.filter_cons_of_pos hp, wfCells, Bool.and_eq_true, decide_eq_true_eq]
      exact ⟨w.1, h⟩
    · rw [List.filter_cons_of_neg (by simpa using hp)]
      exact wfCells_mono (by omega) h

/-! Memories. -/

theorem Memory.set_wf {m : Memory} {a : Nat} {x : Byte} (h : m.wf = true) : (m.set a x).wf = true :=
  wfCells_write (Nat.zero_le _) h

theorem Memory.write_wf : ∀ {bs : List Byte} {m : Memory} {a : Nat}, m.wf = true → (m.write a bs).wf = true
  | [], _, _, h => h
  | x :: r, m, a, h => by
    show ((m.set a x).write (a + 1) r).wf = true
    exact Memory.write_wf (Memory.set_wf h)

theorem Memory.zero_wf {m : Memory} {a n : Nat} (h : m.wf = true) : (m.zero a n).wf = true := wfCells_filter h

theorem Memory.get_set {m : Memory} {a b : Nat} {x : Byte} (h : m.wf = true) :
    (m.set a x).get b = if b = a then x else m.get b := readCells_write h

/-- A byte outside the bytes written reads as before. -/
theorem Memory.get_write_outside : ∀ {bs : List Byte} {m : Memory} {a b : Nat}, m.wf = true → b < a ∨ a + bs.length ≤ b →
    (m.write a bs).get b = m.get b
  | [], _, _, _, _, _ => rfl
  | x :: r, m, a, b, h, hb => by
    have hl : (x :: r).length = r.length + 1 := rfl
    show ((m.set a x).write (a + 1) r).get b = m.get b
    rw [Memory.get_write_outside (Memory.set_wf h) (by omega), Memory.get_set h]
    have : b ≠ a := by omega
    simp [this]

/-- A byte that was written reads as written. -/
theorem Memory.get_write_inside : ∀ {bs : List Byte} {m : Memory} {a i : Nat}, m.wf = true → (hi : i < bs.length) →
    (m.write a bs).get (a + i) = bs[i]
  | x :: r, m, a, 0, h, _ => by
    show ((m.set a x).write (a + 1) r).get a = x
    rw [Memory.get_write_outside (Memory.set_wf h) (by omega), Memory.get_set h]
    simp
  | x :: r, m, a, i + 1, h, hi => by
    show ((m.set a x).write (a + 1) r).get (a + (i + 1)) = (x :: r)[i + 1]
    have := Memory.get_write_inside (bs := r) (m := m.set a x) (a := a + 1) (i := i) (Memory.set_wf h) (by simpa using hi)
    rw [show a + (i + 1) = a + 1 + i by omega, this]
    simp

theorem Memory.read_length (m : Memory) : ∀ (n a : Nat), (m.read a n).length = n
  | 0, _ => rfl
  | n + 1, a => by simp [Memory.read, Memory.read_length m n]

/-- Reading back what was written. -/
theorem Memory.read_write : ∀ {bs : List Byte} {m : Memory} {a : Nat}, m.wf = true → (m.write a bs).read a bs.length = bs
  | [], _, _, _ => rfl
  | x :: r, m, a, h => by
    show ((m.set a x).write (a + 1) r).get a :: ((m.set a x).write (a + 1) r).read (a + 1) r.length = x :: r
    rw [Memory.read_write (Memory.set_wf h), Memory.get_write_outside (Memory.set_wf h) (by omega), Memory.get_set h]
    simp

/-! Main memory in the state. -/

theorem State.rekey_wf {s : State} {k : Key} {g : Nat} (h : s.mem.wf = true) : (s.rekey k g).mem.wf = true := by
  unfold State.rekey
  split
  · split
    · exact h
    · exact Memory.write_wf h
  · exact h

theorem State.rekeys_wf {k : Key} : ∀ {gs : List Nat} {s : State}, s.mem.wf = true →
    (gs.foldl (fun (t : State) g => t.rekey k g) s).mem.wf = true
  | [], _, h => h
  | g :: gs, s, h => by
    show (gs.foldl (fun (t : State) g => t.rekey k g) (s.rekey k g)).mem.wf = true
    exact State.rekeys_wf (State.rekey_wf h)

theorem State.writeMain_wf {s : State} {key : Option Key} {a : Nat} {bs : List (Byte × Bool)} (h : s.mem.wf = true) :
    (s.writeMain key a bs).mem.wf = true := by
  unfold State.writeMain
  split
  · exact Memory.write_wf (State.rekeys_wf h)
  · exact Memory.write_wf h

theorem State.writeRuns_wf : ∀ {ts : List (Target × Nat)} {s : State} {bs : List (Byte × Bool)}, s.mem.wf = true →
    (s.writeRuns ts bs).mem.wf = true
  | [], _, _, h => h
  | (x, n) :: r, s, bs, h => by
    show ((s.writeMain x.key (mainAddr x.die x.off) (bs.take n)).writeRuns r (bs.drop n)).mem.wf = true
    exact State.writeRuns_wf (State.writeMain_wf h)

theorem State.writeGlobal_wf {s t : State} {d p va : Nat} {bs : List (Byte × Bool)} (h : s.mem.wf = true)
    (hw : s.writeGlobal d p va bs = .ok t) : t.mem.wf = true := by
  unfold State.writeGlobal at hw
  split at hw
  · cases hw
    exact State.writeRuns_wf h
  · cases hw

theorem State.writeRecord_wf {s : State} {d p va : Nat} {bs : List Byte} (h : s.mem.wf = true) :
    (s.writeRecord d p va bs).1.mem.wf = true := by
  unfold State.writeRecord
  split
  · rename_i t ht
    exact State.writeGlobal_wf h ht
  · exact h

end Sys2Proof.Machine
end

