-- ==== Sys2Proof/Laws/PerInstr.lean ====
section
/-! SUPPORT. One lemma per constructor of Instr: its encoding is at most two words of 32 bits. -/

namespace Sys2Proof.Laws.WordsFit

/-- At most two words, each below 2^32. -/
def Fits (l : List Nat) : Prop := l.length ≤ 2 ∧ ∀ w ∈ l, w < 2 ^ 32

/-- The words of the instruction's encoding fit (R141, R142). -/
def Statement (i : Instr) : Prop := Fits (encode i)

theorem fits_nil : Fits [] := ⟨by decide, fun _ h => nomatch h⟩

theorem fits_one {a : Nat} (ha : a < 2 ^ 32) : Fits [a] :=
  ⟨by simp, fun w h => by rcases List.mem_singleton.mp h with rfl; exact ha⟩

theorem fits_two {a b : Nat} (ha : a < 2 ^ 32) (hb : b < 2 ^ 32) : Fits [a, b] :=
  ⟨by simp, fun w h => by
    rcases List.mem_cons.mp h with rfl | h
    · exact ha
    · rcases List.mem_singleton.mp h with rfl; exact hb⟩

/-! Codes and fields. -/

theorem code_lt_t (t : ETy) : t.code < 16 := by cases t <;> decide
theorem code_lt_u (t : ETy) : t.code < 16 := code_lt_t t
theorem code_lt_op (o : AtomOp) : o.code < 16 := by cases o <;> decide
theorem code_lt_cc (c : Cmp) : c.code < 6 := by cases c <;> decide
theorem code_lt_path (p : Path) : p.code < 4 := by cases p <;> decide
theorem setCode_lt (c : SetCond) : c.code < 16 := by cases c <;> decide
theorem lidCode_lt (c : LidSel) : c.code < 16 := by cases c <;> decide
theorem sidCode_lt (c : SidSel) : c.code < 32 := by cases c <;> decide
theorem rnd_lt (r : Rnd) : r.code < 8 := by cases r <;> decide
theorem ord_lt (r : Order) : r.code < 4 := by cases r <;> decide
theorem rank_lt (r : Scope) : r.rank < 8 := by cases r <;> decide

theorem flagCode_lt (f : Option (Fin 12)) : flagCode f < 16 := by
  cases f with
  | none => decide
  | some x => exact Nat.lt_of_lt_of_le x.isLt (by decide)

theorem fields_lt (c : BraCond) : c.fields.1 < 32 ∧ c.fields.2.1 < 64 ∧ c.fields.2.2 < 64 := by
  cases c with
  | z a => exact ⟨(by decide : 1 < 32), a.isLt, (by decide : 0 < 64)⟩
  | nz a => exact ⟨(by decide : 2 < 32), a.isLt, (by decide : 0 < 64)⟩
  | ltz a => exact ⟨(by decide : 3 < 32), a.isLt, (by decide : 0 < 64)⟩
  | gez a => exact ⟨(by decide : 4 < 32), a.isLt, (by decide : 0 < 64)⟩
  | cmp c a b => exact ⟨Nat.lt_of_lt_of_le (Nat.add_lt_add_right (code_lt_cc c) 5) (by decide), a.isLt, b.isLt⟩
  | _ => exact ⟨by decide, by decide, by decide⟩

/-! Words. -/

theorem laneWord_lt {x op d a b k : Nat} (hx : x < 2) (ho : op < 128) (hd : d < 64) (ha : a < 64) (hb : b < 64) (g : Guard)
    (hk : k < 2) : laneWord x op d a b g k < 2 ^ 32 := by
  have hp := g.pred.isLt
  have hn : (if g.neg then 2 else 0) ≤ 2 := by split <;> decide
  unfold laneWord
  omega

theorem sclWord_lt {x op d a b sub : Nat} (hx : x < 2) (ho : op < 128) (hd : d < 64) (ha : a < 64) (hb : b < 64)
    (hs : sub < 32) : sclWord x op d a b sub < 2 ^ 32 := by
  unfold sclWord
  omega

theorem tWord_lt {c t2 cls : Nat} {t : ETy} {rm : Rnd} {sat : Bool} (hc : c < 64) (h2 : t2 < 16) (hcls : cls < 2 ^ 14) :
    tWord c t t2 rm sat cls < 2 ^ 32 := by
  have ht := code_lt_t t
  have hr := rnd_lt rm
  have hs : (if sat then 2 ^ 14 else 0) ≤ 2 ^ 14 := by split <;> decide
  unfold tWord
  omega

theorem mWord_lt {c t op cls : Nat} {ord : Order} {scope : Scope} {rm : Rnd} {sat : Bool} (hc : c < 64) (ht : t < 16) (hop : op < 16)
    (hcls : cls < 512) : mWord c t ord scope op rm sat cls < 2 ^ 32 := by
  have ho := ord_lt ord
  have hk := rank_lt scope
  have hr := rnd_lt rm
  have hs : (if sat then 2 ^ 9 else 0) ≤ 2 ^ 9 := by split <;> decide
  unfold mWord
  omega

theorem xWord_lt {fb sbm n nv : Nat} (hf : fb < 64) (hs : sbm < 64) (hn : n < 4) (hv : nv < 128) : xWord fb sbm n nv < 2 ^ 32 := by
  unfold xWord
  omega

theorem LaneR_words_fits {op : Nat} (hop : op < 128) (o : LaneR) : Fits (o.words op) :=
  fits_one (laneWord_lt (by decide) hop (Nat.lt_of_lt_of_le (Fin.isLt o.d) (by decide)) (Nat.lt_of_lt_of_le (Fin.isLt o.a) (by decide)) (Nat.lt_of_lt_of_le (Fin.isLt o.b) (by decide)) _ (by decide))
theorem LaneI_words_fits {op : Nat} (hop : op < 128) (o : LaneI) : Fits (o.words op) :=
  fits_two (laneWord_lt (by decide) hop (Nat.lt_of_lt_of_le (Fin.isLt o.d) (by decide)) (Nat.lt_of_lt_of_le (Fin.isLt o.a) (by decide)) (by decide) _ (by decide)) o.imm.isLt
theorem LaneU_words_fits {op : Nat} (hop : op < 128) (o : LaneU) : Fits (o.words op) :=
  fits_one (laneWord_lt (by decide) hop (Nat.lt_of_lt_of_le (Fin.isLt o.d) (by decide)) (Nat.lt_of_lt_of_le (Fin.isLt o.a) (by decide)) (by decide) _ (by decide))
theorem CmpR_words_fits {op : Nat} (hop : op < 128) (o : CmpR) : Fits (o.words op) :=
  fits_one (laneWord_lt (by decide) hop (Nat.lt_of_lt_of_le (Fin.isLt o.pd) (by decide)) (Nat.lt_of_lt_of_le (Fin.isLt o.a) (by decide)) (Nat.lt_of_lt_of_le (Fin.isLt o.b) (by decide)) _ (by decide))
theorem CmpI_words_fits {op : Nat} (hop : op < 128) (o : CmpI) : Fits (o.words op) :=
  fits_two (laneWord_lt (by decide) hop (Nat.lt_of_lt_of_le (Fin.isLt o.pd) (by decide)) (Nat.lt_of_lt_of_le (Fin.isLt o.a) (by decide)) (by decide) _ (by decide)) o.imm.isLt
theorem PredU_words_fits {op : Nat} (hop : op < 128) (o : PredU) : Fits (o.words op) :=
  fits_one (laneWord_lt (by decide) hop (Nat.lt_of_lt_of_le (Fin.isLt o.pd) (by decide)) (Nat.lt_of_lt_of_le (Fin.isLt o.pa) (by decide)) (by decide) _ (by decide))
theorem PredB_words_fits {op : Nat} (hop : op < 128) (o : PredB) : Fits (o.words op) :=
  fits_one (laneWord_lt (by decide) hop (Nat.lt_of_lt_of_le (Fin.isLt o.pd) (by decide)) (Nat.lt_of_lt_of_le (Fin.isLt o.pa) (by decide)) (Nat.lt_of_lt_of_le (Fin.isLt o.pb) (by decide)) _ (by decide))
theorem TypedB_words_fits {op : Nat} (hop : op < 128) (o : TypedB) : Fits (o.words op) :=
  fits_two (laneWord_lt (by decide) hop (Nat.lt_of_lt_of_le (Fin.isLt o.d) (by decide)) (Nat.lt_of_lt_of_le (Fin.isLt o.a) (by decide)) (Nat.lt_of_lt_of_le (Fin.isLt o.b) (by decide)) _ (by decide)) (tWord_lt (by decide) (by decide) (by decide))
theorem TypedP_words_fits {op cls : Nat} (hop : op < 128) (hc : cls < 2 ^ 14) (o : TypedP) : Fits (o.words op cls) :=
  fits_two (laneWord_lt (by decide) hop (Nat.lt_of_lt_of_le (Fin.isLt o.d) (by decide)) (Nat.lt_of_lt_of_le (Fin.isLt o.a) (by decide)) (Nat.lt_of_lt_of_le (Fin.isLt o.b) (by decide)) _ (by decide)) (tWord_lt (by decide) (by decide) hc)
theorem TypedS_words_fits {op : Nat} (hop : op < 128) (o : TypedS) : Fits (o.words op) :=
  fits_two (laneWord_lt (by decide) hop (Nat.lt_of_lt_of_le (Fin.isLt o.d) (by decide)) (Nat.lt_of_lt_of_le (Fin.isLt o.a) (by decide)) (by decide) _ (by decide)) (tWord_lt (by decide) (by decide) (by decide))
theorem TypedU_words_fits {op : Nat} (hop : op < 128) (o : TypedU) : Fits (o.words op) :=
  fits_two (laneWord_lt (by decide) hop (Nat.lt_of_lt_of_le (Fin.isLt o.d) (by decide)) (Nat.lt_of_lt_of_le (Fin.isLt o.a) (by decide)) (by decide) _ (by decide)) (tWord_lt (by decide) (by decide) (by decide))
theorem MmaArgs_words_fits {op : Nat} (hop : op < 128) (o : MmaArgs) : Fits (o.words op) :=
  fits_two (laneWord_lt (by decide) hop (Nat.lt_of_lt_of_le (Fin.isLt o.d) (by decide)) (Nat.lt_of_lt_of_le (Fin.isLt o.a) (by decide)) (by decide) _ (by split <;> decide)) (xWord_lt (Nat.lt_of_lt_of_le (Fin.isLt o.fb) (by decide)) (Nat.lt_of_lt_of_le (Fin.isLt o.sbm) (by decide)) (Nat.lt_of_lt_of_le (Fin.isLt o.n) (by decide)) (by decide))
theorem SclR_words_fits {op : Nat} (hop : op < 128) (o : SclR) : Fits (o.words op) :=
  fits_one (sclWord_lt (by decide) hop (Nat.lt_of_lt_of_le (Fin.isLt o.d) (by decide)) (Nat.lt_of_lt_of_le (Fin.isLt o.a) (by decide)) (Nat.lt_of_lt_of_le (Fin.isLt o.b) (by decide)) (by decide))
theorem SclI_words_fits {op : Nat} (hop : op < 128) (o : SclI) : Fits (o.words op) :=
  fits_two (sclWord_lt (by decide) hop (Nat.lt_of_lt_of_le (Fin.isLt o.d) (by decide)) (Nat.lt_of_lt_of_le (Fin.isLt o.a) (by decide)) (by decide) (by decide)) o.imm.isLt
theorem SclU_words_fits {op : Nat} (hop : op < 128) (o : SclU) : Fits (o.words op) :=
  fits_one (sclWord_lt (by decide) hop (Nat.lt_of_lt_of_le (Fin.isLt o.d) (by decide)) (Nat.lt_of_lt_of_le (Fin.isLt o.a) (by decide)) (by decide) (by decide))
theorem SclM_words_fits {op : Nat} (hop : op < 128) (o : SclM) : Fits (o.words op) :=
  fits_two (sclWord_lt (by decide) hop (Nat.lt_of_lt_of_le (Fin.isLt o.d) (by decide)) (by decide) (by decide) (by decide)) o.imm.isLt
theorem SclR_copyWords_fits {op : Nat} (hop : op < 128) (o : SclR) : Fits (o.copyWords op) :=
  fits_two (sclWord_lt (by decide) hop (Nat.lt_of_lt_of_le (Fin.isLt o.d) (by decide)) (Nat.lt_of_lt_of_le (Fin.isLt o.a) (by decide)) (Nat.lt_of_lt_of_le (Fin.isLt o.b) (by decide)) (by decide)) (mWord_lt (by decide) (by decide) (by decide) (by decide))
theorem RputArgs_words_fits {op : Nat} (hop : op < 128) (o : RputArgs) : Fits (o.words op) :=
  fits_two (sclWord_lt (by decide) hop (Nat.lt_of_lt_of_le (Fin.isLt o.d) (by decide)) (Nat.lt_of_lt_of_le (Fin.isLt o.a) (by decide)) (Nat.lt_of_lt_of_le (Fin.isLt o.b) (by decide)) (by decide)) (mWord_lt (Nat.lt_of_lt_of_le (Fin.isLt o.c) (by decide)) (by decide) (by decide) (by decide))
theorem saWords_fits {op : Nat} (hop : op < 128) (a : SReg) : Fits (saWords op a) :=
  fits_one (sclWord_lt (by decide) hop (by decide) (Nat.lt_of_lt_of_le (Fin.isLt a) (by decide)) (by decide) (by decide))

/-! The constructors. -/

theorem launchPacket (o : Message) : Statement (.launchPacket o) := fits_nil
theorem launchDispatch (o : Fin 2) : Statement (.launchDispatch o) := fits_nil
theorem install (o : Fin 2) : Statement (.install o) := fits_nil
theorem eventSend (o : Option (Fin 16)) : Statement (.eventSend o) := fits_nil
theorem teamPlacement (o : PlaceArgs) : Statement (.teamPlacement o) := fits_nil
theorem clauseFill (o : GangRef) : Statement (.clauseFill o) := fits_nil
theorem textPageVerify (o : PageRef) : Statement (.textPageVerify o) := fits_nil
theorem roundRobinTurn (o : SubRef) : Statement (.roundRobinTurn o) := fits_nil
theorem yieldDeferralEnd (o : GangRef) : Statement (.yieldDeferralEnd o) := fits_nil
theorem variableLatencyResult (o : OpRef) : Statement (.variableLatencyResult o) := fits_nil
theorem memoryAccessReturn (o : PartRef) : Statement (.memoryAccessReturn o) := fits_nil
theorem copyReturn (o : PartRef) : Statement (.copyReturn o) := fits_nil
theorem parkedAccessReplay (o : VaRef) : Statement (.parkedAccessReplay o) := fits_nil
theorem rcopyLanding (o : LandingArgs) : Statement (.rcopyLanding o) := fits_nil
theorem putLanding (o : LandingArgs) : Statement (.putLanding o) := fits_nil
theorem heldPutDelivery (o : LandingArgs) : Statement (.heldPutDelivery o) := fits_nil
theorem tileDelivery (o : OpRef) : Statement (.tileDelivery o) := fits_nil
theorem accumulatorWrite (o : PartRef) : Statement (.accumulatorWrite o) := fits_nil
theorem barrierTimeout (o : BarrierRef) : Statement (.barrierTimeout o) := fits_nil
theorem waitvReread (o : GangRef) : Statement (.waitvReread o) := fits_nil
theorem teamSwap (o : SwapTeamArgs) : Statement (.teamSwap o) := fits_nil
theorem swapRestore (o : SwapRestoreArgs) : Statement (.swapRestore o) := fits_nil
theorem groupEnd (o : GroupRef) : Statement (.groupEnd o) := fits_nil
theorem launchComplete (o : Nat) : Statement (.launchComplete o) := fits_nil
theorem collapse (o : VaRef) : Statement (.collapse o) := fits_nil
theorem eccError (o : EccArgs) : Statement (.eccError o) := fits_nil
theorem clusterCheckDrain (o : CheckArgs) : Statement (.clusterCheckDrain o) := fits_nil
theorem thermalTrip (o : Fin 14) : Statement (.thermalTrip o) := fits_nil
theorem powerOn (o : BringUp) : Statement (.powerOn o) := fits_nil
theorem tileStopSave (o : CoreRef) : Statement (.tileStopSave o) := fits_nil
theorem wheyEntry (o : WheyArgs) : Statement (.wheyEntry o) := fits_nil
theorem saveSeal (o : CoreRef) : Statement (.saveSeal o) := fits_nil
theorem tileRestore (o : CoreRef) : Statement (.tileRestore o) := fits_nil
theorem inFieldScanTest (o : CoreRef) : Statement (.inFieldScanTest o) := fits_nil
theorem scanDrainEnd (o : CoreRef) : Statement (.scanDrainEnd o) := fits_nil
theorem scanPatternRunEnd (o : CoreRef) : Statement (.scanPatternRunEnd o) := fits_nil
theorem scanTestAbort (o : AbortArgs) : Statement (.scanTestAbort o) := fits_nil
theorem tileStart (o : CoreRef) : Statement (.tileStart o) := fits_nil
theorem migrateMove (o : Fin 2) : Statement (.migrateMove o) := fits_nil
theorem migrateProtect (o : Fin 2) : Statement (.migrateProtect o) := fits_nil
theorem migrateReplicate (o : Fin 2) : Statement (.migrateReplicate o) := fits_nil
theorem resetCompleteEvent (o : Fin 16) : Statement (.resetCompleteEvent o) := fits_nil
theorem dieResetComplete (o : Fin 14) : Statement (.dieResetComplete o) := fits_nil
theorem clauseHeader (o : HeaderArgs) : Statement (.clauseHeader o) :=
  fits_one (by have := o.wait.isLt; have := flagCode_lt o.rflag; have := flagCode_lt o.sflag; have := o.yield.isLt; omega)
theorem addI32 (o : LaneR) : Statement (.addI32 o) := LaneR_words_fits (by decide) o
theorem addI32Imm (o : LaneI) : Statement (.addI32Imm o) := LaneI_words_fits (by decide) o
theorem subI32 (o : LaneR) : Statement (.subI32 o) := LaneR_words_fits (by decide) o
theorem subI32Imm (o : LaneI) : Statement (.subI32Imm o) := LaneI_words_fits (by decide) o
theorem mulI32 (o : LaneR) : Statement (.mulI32 o) := LaneR_words_fits (by decide) o
theorem mulI32Imm (o : LaneI) : Statement (.mulI32Imm o) := LaneI_words_fits (by decide) o
theorem mulhiI32 (o : LaneR) : Statement (.mulhiI32 o) := LaneR_words_fits (by decide) o
theorem mulhiI32Imm (o : LaneI) : Statement (.mulhiI32Imm o) := LaneI_words_fits (by decide) o
theorem mulhiN32 (o : LaneR) : Statement (.mulhiN32 o) := LaneR_words_fits (by decide) o
theorem mulhiN32Imm (o : LaneI) : Statement (.mulhiN32Imm o) := LaneI_words_fits (by decide) o
theorem minI32 (o : LaneR) : Statement (.minI32 o) := LaneR_words_fits (by decide) o
theorem minI32Imm (o : LaneI) : Statement (.minI32Imm o) := LaneI_words_fits (by decide) o
theorem maxI32 (o : LaneR) : Statement (.maxI32 o) := LaneR_words_fits (by decide) o
theorem maxI32Imm (o : LaneI) : Statement (.maxI32Imm o) := LaneI_words_fits (by decide) o
theorem minN32 (o : LaneR) : Statement (.minN32 o) := LaneR_words_fits (by decide) o
theorem minN32Imm (o : LaneI) : Statement (.minN32Imm o) := LaneI_words_fits (by decide) o
theorem maxN32 (o : LaneR) : Statement (.maxN32 o) := LaneR_words_fits (by decide) o
theorem maxN32Imm (o : LaneI) : Statement (.maxN32Imm o) := LaneI_words_fits (by decide) o
theorem and (o : LaneR) : Statement (.and o) := LaneR_words_fits (by decide) o
theorem andImm (o : LaneI) : Statement (.andImm o) := LaneI_words_fits (by decide) o
theorem or (o : LaneR) : Statement (.or o) := LaneR_words_fits (by decide) o
theorem orImm (o : LaneI) : Statement (.orImm o) := LaneI_words_fits (by decide) o
theorem xor (o : LaneR) : Statement (.xor o) := LaneR_words_fits (by decide) o
theorem xorImm (o : LaneI) : Statement (.xorImm o) := LaneI_words_fits (by decide) o
theorem andn (o : LaneR) : Statement (.andn o) := LaneR_words_fits (by decide) o
theorem andnImm (o : LaneI) : Statement (.andnImm o) := LaneI_words_fits (by decide) o
theorem shl (o : LaneR) : Statement (.shl o) := LaneR_words_fits (by decide) o
theorem shlImm (o : LaneI) : Statement (.shlImm o) := LaneI_words_fits (by decide) o
theorem shrN32 (o : LaneR) : Statement (.shrN32 o) := LaneR_words_fits (by decide) o
theorem shrN32Imm (o : LaneI) : Statement (.shrN32Imm o) := LaneI_words_fits (by decide) o
theorem shrI32 (o : LaneR) : Statement (.shrI32 o) := LaneR_words_fits (by decide) o
theorem shrI32Imm (o : LaneI) : Statement (.shrI32Imm o) := LaneI_words_fits (by decide) o
theorem rol (o : LaneR) : Statement (.rol o) := LaneR_words_fits (by decide) o
theorem rolImm (o : LaneI) : Statement (.rolImm o) := LaneI_words_fits (by decide) o
theorem popc (o : LaneU) : Statement (.popc o) := LaneU_words_fits (by decide) o
theorem clz (o : LaneU) : Statement (.clz o) := LaneU_words_fits (by decide) o
theorem brev (o : LaneU) : Statement (.brev o) := LaneU_words_fits (by decide) o
theorem mov (o : LaneU) : Statement (.mov o) := LaneU_words_fits (by decide) o
theorem movImm (o : LaneM) : Statement (.movImm o) :=
  fits_two (laneWord_lt (by decide) (by decide) (Nat.lt_of_lt_of_le (Fin.isLt o.d) (by decide)) (by decide) (by decide) _ (by decide)) o.imm.isLt
theorem absI32 (o : LaneU) : Statement (.absI32 o) := LaneU_words_fits (by decide) o
theorem negI32 (o : LaneU) : Statement (.negI32 o) := LaneU_words_fits (by decide) o
theorem seteqI32 (o : CmpR) : Statement (.seteqI32 o) := CmpR_words_fits (by decide) o
theorem seteqI32Imm (o : CmpI) : Statement (.seteqI32Imm o) := CmpI_words_fits (by decide) o
theorem setneI32 (o : CmpR) : Statement (.setneI32 o) := CmpR_words_fits (by decide) o
theorem setneI32Imm (o : CmpI) : Statement (.setneI32Imm o) := CmpI_words_fits (by decide) o
theorem setltI32 (o : CmpR) : Statement (.setltI32 o) := CmpR_words_fits (by decide) o
theorem setltI32Imm (o : CmpI) : Statement (.setltI32Imm o) := CmpI_words_fits (by decide) o
theorem setleI32 (o : CmpR) : Statement (.setleI32 o) := CmpR_words_fits (by decide) o
theorem setleI32Imm (o : CmpI) : Statement (.setleI32Imm o) := CmpI_words_fits (by decide) o
theorem setltN32 (o : CmpR) : Statement (.setltN32 o) := CmpR_words_fits (by decide) o
theorem setltN32Imm (o : CmpI) : Statement (.setltN32Imm o) := CmpI_words_fits (by decide) o
theorem setleN32 (o : CmpR) : Statement (.setleN32 o) := CmpR_words_fits (by decide) o
theorem setleN32Imm (o : CmpI) : Statement (.setleN32Imm o) := CmpI_words_fits (by decide) o
theorem setgtI32 (o : CmpR) : Statement (.setgtI32 o) := CmpR_words_fits (by decide) o
theorem setgtI32Imm (o : CmpI) : Statement (.setgtI32Imm o) := CmpI_words_fits (by decide) o
theorem setgtN32 (o : CmpR) : Statement (.setgtN32 o) := CmpR_words_fits (by decide) o
theorem setgtN32Imm (o : CmpI) : Statement (.setgtN32Imm o) := CmpI_words_fits (by decide) o
theorem pmov (o : PredU) : Statement (.pmov o) := PredU_words_fits (by decide) o
theorem pnot (o : PredU) : Statement (.pnot o) := PredU_words_fits (by decide) o
theorem pand (o : PredB) : Statement (.pand o) := PredB_words_fits (by decide) o
theorem por (o : PredB) : Statement (.por o) := PredB_words_fits (by decide) o
theorem pxor (o : PredB) : Statement (.pxor o) := PredB_words_fits (by decide) o
theorem ptoi (o : PredI) : Statement (.ptoi o) :=
  fits_one (laneWord_lt (by decide) (by decide) (Nat.lt_of_lt_of_le (Fin.isLt o.d) (by decide)) (Nat.lt_of_lt_of_le (Fin.isLt o.pa) (by decide)) (by decide) _ (by decide))
theorem lid (o : LidArgs) : Statement (.lid o) :=
  fits_one (laneWord_lt (by decide) (by decide) (Nat.lt_of_lt_of_le (Fin.isLt o.d) (by decide)) (Nat.lt_of_lt_of_le (lidCode_lt _) (by decide)) (by decide) _ (by decide))
theorem addTyped (o : TypedB) : Statement (.addTyped o) := TypedB_words_fits (by decide) o
theorem subTyped (o : TypedB) : Statement (.subTyped o) := TypedB_words_fits (by decide) o
theorem mulTyped (o : TypedB) : Statement (.mulTyped o) := TypedB_words_fits (by decide) o
theorem mad (o : TypedC) : Statement (.mad o) :=
  fits_two (laneWord_lt (by decide) (by decide) (Nat.lt_of_lt_of_le (Fin.isLt o.d) (by decide)) (Nat.lt_of_lt_of_le (Fin.isLt o.a) (by decide)) (Nat.lt_of_lt_of_le (Fin.isLt o.b) (by decide)) _ (by decide)) (tWord_lt (Nat.lt_of_lt_of_le (Fin.isLt o.c) (by decide)) (by decide) (by decide))
theorem minTyped (o : TypedP) : Statement (.minTyped o) := TypedP_words_fits (by decide) (by decide) o
theorem maxTyped (o : TypedP) : Statement (.maxTyped o) := TypedP_words_fits (by decide) (by decide) o
theorem setcc (o : SetccArgs) : Statement (.setcc o) :=
  fits_two (laneWord_lt (by decide) (by decide) (Nat.lt_of_lt_of_le (Fin.isLt o.pd) (by decide)) (Nat.lt_of_lt_of_le (Fin.isLt o.a) (by decide)) (Nat.lt_of_lt_of_le (Fin.isLt o.b) (by decide)) _ (by decide)) (tWord_lt (by decide) (by decide) (Nat.lt_of_lt_of_le (setCode_lt _) (by decide)))
theorem shlTyped (o : TypedP) : Statement (.shlTyped o) := TypedP_words_fits (by decide) (by decide) o
theorem shrTyped (o : TypedP) : Statement (.shrTyped o) := TypedP_words_fits (by decide) (by decide) o
theorem negTyped (o : TypedS) : Statement (.negTyped o) := TypedS_words_fits (by decide) o
theorem absTyped (o : TypedS) : Statement (.absTyped o) := TypedS_words_fits (by decide) o
theorem div (o : TypedB) : Statement (.div o) := TypedB_words_fits (by decide) o
theorem sqrt (o : TypedQ) : Statement (.sqrt o) :=
  fits_two (laneWord_lt (by decide) (by decide) (Nat.lt_of_lt_of_le (Fin.isLt o.d) (by decide)) (Nat.lt_of_lt_of_le (Fin.isLt o.a) (by decide)) (by decide) _ (by decide)) (tWord_lt (by decide) (by decide) (by decide))
theorem cvt (o : CvtArgs) : Statement (.cvt o) :=
  fits_two (laneWord_lt (by decide) (by decide) (Nat.lt_of_lt_of_le (Fin.isLt o.d) (by decide)) (Nat.lt_of_lt_of_le (Fin.isLt o.a) (by decide)) (by decide) _ (by decide)) (tWord_lt (by decide) (Nat.lt_of_lt_of_le (code_lt_u _) (by decide)) (by decide))
theorem rndi (o : TypedN) : Statement (.rndi o) :=
  fits_two (laneWord_lt (by decide) (by decide) (Nat.lt_of_lt_of_le (Fin.isLt o.d) (by decide)) (Nat.lt_of_lt_of_le (Fin.isLt o.a) (by decide)) (by decide) _ (by decide)) (tWord_lt (by decide) (by decide) (by decide))
theorem fclass (o : TypedU) : Statement (.fclass o) := TypedU_words_fits (by decide) o
theorem sin (o : TypedU) : Statement (.sin o) := TypedU_words_fits (by decide) o
theorem cos (o : TypedU) : Statement (.cos o) := TypedU_words_fits (by decide) o
theorem rcp (o : TypedU) : Statement (.rcp o) := TypedU_words_fits (by decide) o
theorem rsq (o : TypedU) : Statement (.rsq o) := TypedU_words_fits (by decide) o
theorem exp2 (o : TypedU) : Statement (.exp2 o) := TypedU_words_fits (by decide) o
theorem log2 (o : TypedU) : Statement (.log2 o) := TypedU_words_fits (by decide) o
theorem dp4 (o : Dp4Args) : Statement (.dp4 o) :=
  fits_two (laneWord_lt (by decide) (by decide) (Nat.lt_of_lt_of_le (Fin.isLt o.d) (by decide)) (Nat.lt_of_lt_of_le (Fin.isLt o.a) (by decide)) (Nat.lt_of_lt_of_le (Fin.isLt o.b) (by decide)) _ (by decide)) (tWord_lt (Nat.lt_of_lt_of_le (Fin.isLt o.c) (by decide)) (Nat.lt_of_lt_of_le (code_lt_u _) (by decide)) (by decide))
theorem shfl (o : LaneR) : Statement (.shfl o) := LaneR_words_fits (by decide) o
theorem swap (o : SwapArgs) : Statement (.swap o) :=
  fits_one (laneWord_lt (by decide) (by decide) (Nat.lt_of_lt_of_le (Fin.isLt o.d) (by decide)) (Nat.lt_of_lt_of_le (Fin.isLt o.a) (by decide)) (Nat.lt_of_lt_of_le (Fin.isLt o.m) (by decide)) _ (by decide))
theorem bcast (o : LaneR) : Statement (.bcast o) := LaneR_words_fits (by decide) o
theorem bcastImm (o : LaneI) : Statement (.bcastImm o) := LaneI_words_fits (by decide) o
theorem rot (o : LaneR) : Statement (.rot o) := LaneR_words_fits (by decide) o
theorem rotImm (o : LaneI) : Statement (.rotImm o) := LaneI_words_fits (by decide) o
theorem prmt (o : PrmtArgs) : Statement (.prmt o) :=
  fits_two (laneWord_lt (by decide) (by decide) (Nat.lt_of_lt_of_le (Fin.isLt o.d) (by decide)) (Nat.lt_of_lt_of_le (Fin.isLt o.a) (by decide)) (Nat.lt_of_lt_of_le (Fin.isLt o.b) (by decide)) _ (by decide)) (tWord_lt (Nat.lt_of_lt_of_le (Fin.isLt o.c) (by decide)) (by decide) (by decide))
theorem pack (o : LaneR) : Statement (.pack o) := LaneR_words_fits (by decide) o
theorem ld (o : LdArgs) : Statement (.ld o) :=
  fits_two (laneWord_lt (by decide) (by decide) (Nat.lt_of_lt_of_le (Fin.isLt o.d) (by decide)) (Nat.lt_of_lt_of_le (Fin.isLt o.a) (by decide)) (by decide) _ (by decide)) (mWord_lt (by decide) (Nat.lt_of_lt_of_le (code_lt_t _) (by decide)) (by decide) (by decide))
theorem st (o : StArgs) : Statement (.st o) :=
  fits_two (laneWord_lt (by decide) (by decide) (by decide) (Nat.lt_of_lt_of_le (Fin.isLt o.a) (by decide)) (Nat.lt_of_lt_of_le (Fin.isLt o.b) (by decide)) _ (by decide)) (mWord_lt (by decide) (Nat.lt_of_lt_of_le (code_lt_t _) (by decide)) (by decide) (by decide))
theorem atom (o : AtomArgs) : Statement (.atom o) :=
  fits_two (laneWord_lt (by decide) (by decide) (Nat.lt_of_lt_of_le (Fin.isLt o.d) (by decide)) (Nat.lt_of_lt_of_le (Fin.isLt o.a) (by decide)) (Nat.lt_of_lt_of_le (Fin.isLt o.b) (by decide)) _ (by decide)) (mWord_lt (by decide) (Nat.lt_of_lt_of_le (code_lt_t _) (by decide)) (Nat.lt_of_lt_of_le (code_lt_op _) (by decide)) (by decide))
theorem cas (o : CasArgs) : Statement (.cas o) :=
  fits_two (laneWord_lt (by decide) (by decide) (Nat.lt_of_lt_of_le (Fin.isLt o.d) (by decide)) (Nat.lt_of_lt_of_le (Fin.isLt o.a) (by decide)) (Nat.lt_of_lt_of_le (Fin.isLt o.b) (by decide)) _ (by decide)) (mWord_lt (Nat.lt_of_lt_of_le (Fin.isLt o.c) (by decide)) (Nat.lt_of_lt_of_le (code_lt_t _) (by decide)) (by decide) (by decide))
theorem deposit (o : DepositArgs) : Statement (.deposit o) :=
  fits_one (laneWord_lt (by decide) (by decide) (by decide) (Nat.lt_of_lt_of_le (Fin.isLt o.a) (by decide)) (Nat.lt_of_lt_of_le (Fin.isLt o.b) (by decide)) _ (by decide))
theorem mma (o : MmaArgs) : Statement (.mma o) := MmaArgs_words_fits (by decide) o
theorem mmv (o : MmvArgs) : Statement (.mmv o) :=
  fits_two (laneWord_lt (by decide) (by decide) (Nat.lt_of_lt_of_le (Fin.isLt o.d) (by decide)) (Nat.lt_of_lt_of_le (Fin.isLt o.a) (by decide)) (by decide) _ (by split <;> decide)) (xWord_lt (Nat.lt_of_lt_of_le (Fin.isLt o.fb) (by decide)) (Nat.lt_of_lt_of_le (Fin.isLt o.sbm) (by decide)) (by decide) (Nat.lt_of_lt_of_le (Fin.isLt o.nv) (by decide)))
theorem mmas (o : MmaArgs) : Statement (.mmas o) := MmaArgs_words_fits (by decide) o
theorem smovI32 (o : SclU) : Statement (.smovI32 o) := SclU_words_fits (by decide) o
theorem smovI32Imm (o : SclM) : Statement (.smovI32Imm o) := SclM_words_fits (by decide) o
theorem saddI32 (o : SclR) : Statement (.saddI32 o) := SclR_words_fits (by decide) o
theorem saddI32Imm (o : SclI) : Statement (.saddI32Imm o) := SclI_words_fits (by decide) o
theorem ssubI32 (o : SclR) : Statement (.ssubI32 o) := SclR_words_fits (by decide) o
theorem ssubI32Imm (o : SclI) : Statement (.ssubI32Imm o) := SclI_words_fits (by decide) o
theorem smulI32 (o : SclR) : Statement (.smulI32 o) := SclR_words_fits (by decide) o
theorem smulI32Imm (o : SclI) : Statement (.smulI32Imm o) := SclI_words_fits (by decide) o
theorem smulhiI32 (o : SclR) : Statement (.smulhiI32 o) := SclR_words_fits (by decide) o
theorem smulhiI32Imm (o : SclI) : Statement (.smulhiI32Imm o) := SclI_words_fits (by decide) o
theorem smulhiN32 (o : SclR) : Statement (.smulhiN32 o) := SclR_words_fits (by decide) o
theorem smulhiN32Imm (o : SclI) : Statement (.smulhiN32Imm o) := SclI_words_fits (by decide) o
theorem sminI32 (o : SclR) : Statement (.sminI32 o) := SclR_words_fits (by decide) o
theorem sminI32Imm (o : SclI) : Statement (.sminI32Imm o) := SclI_words_fits (by decide) o
theorem smaxI32 (o : SclR) : Statement (.smaxI32 o) := SclR_words_fits (by decide) o
theorem smaxI32Imm (o : SclI) : Statement (.smaxI32Imm o) := SclI_words_fits (by decide) o
theorem sshl (o : SclR) : Statement (.sshl o) := SclR_words_fits (by decide) o
theorem sshlImm (o : SclI) : Statement (.sshlImm o) := SclI_words_fits (by decide) o
theorem sshrN32 (o : SclR) : Statement (.sshrN32 o) := SclR_words_fits (by decide) o
theorem sshrN32Imm (o : SclI) : Statement (.sshrN32Imm o) := SclI_words_fits (by decide) o
theorem sshrI32 (o : SclR) : Statement (.sshrI32 o) := SclR_words_fits (by decide) o
theorem sshrI32Imm (o : SclI) : Statement (.sshrI32Imm o) := SclI_words_fits (by decide) o
theorem sand (o : SclR) : Statement (.sand o) := SclR_words_fits (by decide) o
theorem sandImm (o : SclI) : Statement (.sandImm o) := SclI_words_fits (by decide) o
theorem sor (o : SclR) : Statement (.sor o) := SclR_words_fits (by decide) o
theorem sorImm (o : SclI) : Statement (.sorImm o) := SclI_words_fits (by decide) o
theorem sxor (o : SclR) : Statement (.sxor o) := SclR_words_fits (by decide) o
theorem sxorImm (o : SclI) : Statement (.sxorImm o) := SclI_words_fits (by decide) o
theorem sandn (o : SclR) : Statement (.sandn o) := SclR_words_fits (by decide) o
theorem sandnImm (o : SclI) : Statement (.sandnImm o) := SclI_words_fits (by decide) o
theorem sminN32 (o : SclR) : Statement (.sminN32 o) := SclR_words_fits (by decide) o
theorem sminN32Imm (o : SclI) : Statement (.sminN32Imm o) := SclI_words_fits (by decide) o
theorem smaxN32 (o : SclR) : Statement (.smaxN32 o) := SclR_words_fits (by decide) o
theorem smaxN32Imm (o : SclI) : Statement (.smaxN32Imm o) := SclI_words_fits (by decide) o
theorem spopc (o : SclU) : Statement (.spopc o) := SclU_words_fits (by decide) o
theorem sclz (o : SclU) : Statement (.sclz o) := SclU_words_fits (by decide) o
theorem scmpI32 (o : ScmpR) : Statement (.scmpI32 o) :=
  fits_one (sclWord_lt (by decide) (by decide) (Nat.lt_of_lt_of_le (Fin.isLt o.d) (by decide)) (Nat.lt_of_lt_of_le (Fin.isLt o.a) (by decide)) (Nat.lt_of_lt_of_le (Fin.isLt o.b) (by decide)) (Nat.lt_of_lt_of_le (Nat.add_lt_add_right (code_lt_cc _) 5) (by decide)))
theorem scmpI32Imm (o : ScmpI) : Statement (.scmpI32Imm o) :=
  fits_two (sclWord_lt (by decide) (by decide) (Nat.lt_of_lt_of_le (Fin.isLt o.d) (by decide)) (Nat.lt_of_lt_of_le (Fin.isLt o.a) (by decide)) (by decide) (Nat.lt_of_lt_of_le (Nat.add_lt_add_right (code_lt_cc _) 5) (by decide))) o.imm.isLt
theorem smovI64 (o : SclU) : Statement (.smovI64 o) := SclU_words_fits (by decide) o
theorem smovI64Imm (o : SclM) : Statement (.smovI64Imm o) := SclM_words_fits (by decide) o
theorem saddI64 (o : SclR) : Statement (.saddI64 o) := SclR_words_fits (by decide) o
theorem saddI64Imm (o : SclI) : Statement (.saddI64Imm o) := SclI_words_fits (by decide) o
theorem ssubI64 (o : SclR) : Statement (.ssubI64 o) := SclR_words_fits (by decide) o
theorem ssubI64Imm (o : SclI) : Statement (.ssubI64Imm o) := SclI_words_fits (by decide) o
theorem smulI64 (o : SclR) : Statement (.smulI64 o) := SclR_words_fits (by decide) o
theorem smulI64Imm (o : SclI) : Statement (.smulI64Imm o) := SclI_words_fits (by decide) o
theorem sshlN64 (o : SclR) : Statement (.sshlN64 o) := SclR_words_fits (by decide) o
theorem sshlN64Imm (o : SclI) : Statement (.sshlN64Imm o) := SclI_words_fits (by decide) o
theorem sshrN64 (o : SclR) : Statement (.sshrN64 o) := SclR_words_fits (by decide) o
theorem sshrN64Imm (o : SclI) : Statement (.sshrN64Imm o) := SclI_words_fits (by decide) o
theorem scmpI64 (o : ScmpR) : Statement (.scmpI64 o) :=
  fits_one (sclWord_lt (by decide) (by decide) (Nat.lt_of_lt_of_le (Fin.isLt o.d) (by decide)) (Nat.lt_of_lt_of_le (Fin.isLt o.a) (by decide)) (Nat.lt_of_lt_of_le (Fin.isLt o.b) (by decide)) (Nat.lt_of_lt_of_le (Nat.add_lt_add_right (code_lt_cc _) 5) (by decide)))
theorem bra (o : BraArgs) : Statement (.bra o) :=
  fits_two (sclWord_lt (by decide) (by decide) (by decide) (fields_lt _).2.1 (fields_lt _).2.2 (fields_lt _).1) o.disp.isLt
theorem call (o : CallArgs) : Statement (.call o) :=
  fits_two (sclWord_lt (by decide) (by decide) (Nat.lt_of_lt_of_le (Fin.isLt o.d) (by decide)) (by decide) (Nat.lt_of_lt_of_le (Fin.isLt o.w) (by decide)) (by decide)) o.disp.isLt
theorem ret (o : SReg) : Statement (.ret o) := saWords_fits (by decide) o
theorem join (o : SReg) : Statement (.join o) := saWords_fits (by decide) o
theorem msplit (o : MsplitArgs) : Statement (.msplit o) :=
  fits_one (sclWord_lt (by decide) (by decide) (Nat.lt_of_lt_of_le (Fin.isLt o.d) (by decide)) (by decide) (by decide) (by have := o.p.isLt; split <;> omega))
theorem melse (o : SReg) : Statement (.melse o) := saWords_fits (by decide) o
theorem splane (o : SReg) : Statement (.splane o) := saWords_fits (by decide) o
theorem smodeRd (o : SReg) : Statement (.smodeRd o) :=
  fits_one (sclWord_lt (by decide) (by decide) (Nat.lt_of_lt_of_le (Fin.isLt o) (by decide)) (by decide) (by decide) (by decide))
theorem smodeWr (o : SReg) : Statement (.smodeWr o) :=
  fits_one (sclWord_lt (by decide) (by decide) (by decide) (Nat.lt_of_lt_of_le (Fin.isLt o) (by decide)) (by decide) (by decide))
theorem smodeClr (o : SReg) : Statement (.smodeClr o) :=
  fits_one (sclWord_lt (by decide) (by decide) (Nat.lt_of_lt_of_le (Fin.isLt o) (by decide)) (by decide) (by decide) (by decide))
theorem smodeRm (o : SReg) : Statement (.smodeRm o) :=
  fits_one (sclWord_lt (by decide) (by decide) (by decide) (Nat.lt_of_lt_of_le (Fin.isLt o) (by decide)) (by decide) (by decide))
theorem sid (o : SidArgs) : Statement (.sid o) :=
  fits_one (sclWord_lt (by decide) (by decide) (Nat.lt_of_lt_of_le (Fin.isLt o.d) (by decide)) (by decide) (by decide) (Nat.lt_of_lt_of_le (sidCode_lt _) (by decide)))
theorem ldarg (o : LdargArgs) : Statement (.ldarg o) :=
  fits_two (sclWord_lt (by decide) (by decide) (Nat.lt_of_lt_of_le (Fin.isLt o.d) (by decide)) (by decide) (by decide) (by decide)) (by have := o.off.isLt; omega)
theorem sigchk (n : Word) : Statement (.sigchk n) :=
  fits_two (sclWord_lt (by decide) (by decide) (by decide) (by decide) (by decide) (by decide)) (Nat.lt_of_lt_of_le n.isLt (by decide))
theorem trap (n : BitVec 16) : Statement (.trap n) :=
  fits_two (sclWord_lt (by decide) (by decide) (by decide) (by decide) (by decide) (by decide)) (Nat.lt_of_lt_of_le n.isLt (by decide))
theorem mark (n : Word) : Statement (.mark n) :=
  fits_two (sclWord_lt (by decide) (by decide) (by decide) (by decide) (by decide) (by decide)) (Nat.lt_of_lt_of_le n.isLt (by decide))
theorem patchreq (o : SReg) : Statement (.patchreq o) := saWords_fits (by decide) o
theorem tclk (o : SReg) : Statement (.tclk o) := saWords_fits (by decide) o
theorem sysrd (o : SclU) : Statement (.sysrd o) := SclU_words_fits (by decide) o
theorem syswr (o : SclU) : Statement (.syswr o) :=
  fits_one (sclWord_lt (by decide) (by decide) (by decide) (Nat.lt_of_lt_of_le (Fin.isLt o.d) (by decide)) (Nat.lt_of_lt_of_le (Fin.isLt o.a) (by decide)) (by decide))
theorem sld (o : SldArgs) : Statement (.sld o) :=
  fits_two (sclWord_lt (by decide) (by decide) (Nat.lt_of_lt_of_le (Fin.isLt o.d) (by decide)) (Nat.lt_of_lt_of_le (Fin.isLt o.a) (by decide)) (by decide) (by decide)) (mWord_lt (by decide) (Nat.lt_of_lt_of_le (code_lt_t _) (by decide)) (by decide) (by decide))
theorem sst (o : SstArgs) : Statement (.sst o) :=
  fits_two (sclWord_lt (by decide) (by decide) (by decide) (Nat.lt_of_lt_of_le (Fin.isLt o.a) (by decide)) (Nat.lt_of_lt_of_le (Fin.isLt o.b) (by decide)) (by decide)) (mWord_lt (by decide) (Nat.lt_of_lt_of_le (code_lt_t _) (by decide)) (by decide) (by decide))
theorem satom (o : SatomArgs) : Statement (.satom o) :=
  fits_two (sclWord_lt (by decide) (by decide) (Nat.lt_of_lt_of_le (Fin.isLt o.d) (by decide)) (Nat.lt_of_lt_of_le (Fin.isLt o.a) (by decide)) (Nat.lt_of_lt_of_le (Fin.isLt o.b) (by decide)) (by decide)) (mWord_lt (by decide) (Nat.lt_of_lt_of_le (code_lt_t _) (by decide)) (Nat.lt_of_lt_of_le (code_lt_op _) (by decide)) (by decide))
theorem scas (o : ScasArgs) : Statement (.scas o) :=
  fits_two (sclWord_lt (by decide) (by decide) (Nat.lt_of_lt_of_le (Fin.isLt o.d) (by decide)) (Nat.lt_of_lt_of_le (Fin.isLt o.a) (by decide)) (Nat.lt_of_lt_of_le (Fin.isLt o.b) (by decide)) (by decide)) (mWord_lt (Nat.lt_of_lt_of_le (Fin.isLt o.c) (by decide)) (Nat.lt_of_lt_of_le (code_lt_t _) (by decide)) (by decide) (by decide))
theorem fence (o : FenceArgs) : Statement (.fence o) :=
  fits_two (sclWord_lt (by decide) (by decide) (by decide) (by decide) (by decide) (by decide)) (mWord_lt (by decide) (by decide) (by decide) (Nat.lt_of_lt_of_le o.classes.isLt (by decide)))
theorem waitp (o : WaitpArgs) : Statement (.waitp o) :=
  fits_one (sclWord_lt (by decide) (by decide) (by decide) (Nat.lt_of_lt_of_le (Fin.isLt o.a) (by decide)) (by decide) (Nat.lt_of_lt_of_le (code_lt_path _) (by decide)))
theorem waitv (o : WaitvArgs) : Statement (.waitv o) :=
  fits_two (sclWord_lt (by decide) (by decide) (Nat.lt_of_lt_of_le (Fin.isLt o.d) (by decide)) (Nat.lt_of_lt_of_le (Fin.isLt o.a) (by decide)) (Nat.lt_of_lt_of_le (Fin.isLt o.b) (by decide)) (by decide)) (mWord_lt (by decide) (Nat.lt_of_lt_of_le (code_lt_t _) (by decide)) (Nat.lt_of_lt_of_le (code_lt_cc _) (by decide)) (by decide))
theorem waitvm (o : WaitvmArgs) : Statement (.waitvm o) :=
  fits_two (sclWord_lt (by decide) (by decide) (Nat.lt_of_lt_of_le (Fin.isLt o.d) (by decide)) (Nat.lt_of_lt_of_le (Fin.isLt o.a) (by decide)) (Nat.lt_of_lt_of_le (Fin.isLt o.b) (by decide)) (by decide)) (mWord_lt (Nat.lt_of_lt_of_le (Fin.isLt o.c) (by decide)) (Nat.lt_of_lt_of_le (code_lt_t _) (by decide)) (Nat.lt_of_lt_of_le (code_lt_cc _) (by decide)) (by decide))
theorem bar (o : BarArgs) : Statement (.bar o) :=
  fits_two (sclWord_lt (by decide) (by decide) (Nat.lt_of_lt_of_le (Fin.isLt o.d) (by decide)) (by decide) (by decide) (by decide)) (by have := o.timeout.isLt; have := o.count.isLt; have := o.barrier.isLt; omega)
theorem cpin (o : SclR) : Statement (.cpin o) := SclR_copyWords_fits (by decide) o
theorem cpout (o : SclR) : Statement (.cpout o) := SclR_copyWords_fits (by decide) o
theorem gather (o : GatherArgs) : Statement (.gather o) :=
  fits_two (sclWord_lt (by decide) (by decide) (Nat.lt_of_lt_of_le (Fin.isLt o.d) (by decide)) (Nat.lt_of_lt_of_le (Fin.isLt o.a) (by decide)) (Nat.lt_of_lt_of_le (Fin.isLt o.b) (by decide)) (by decide)) (mWord_lt (Nat.lt_of_lt_of_le (Fin.isLt o.c) (by decide)) (by decide) (by decide) (by decide))
theorem xpand (o : XpandArgs) : Statement (.xpand o) :=
  fits_two (sclWord_lt (by decide) (by decide) (Nat.lt_of_lt_of_le (Fin.isLt o.d) (by decide)) (Nat.lt_of_lt_of_le (Fin.isLt o.a) (by decide)) (Nat.lt_of_lt_of_le (Fin.isLt o.b) (by decide)) (by decide)) (mWord_lt (Nat.lt_of_lt_of_le (Fin.isLt o.c) (by decide)) (Nat.lt_of_lt_of_le (code_lt_t _) (by decide)) (by decide) (by decide))
theorem rcopy (o : RputArgs) : Statement (.rcopy o) := RputArgs_words_fits (by decide) o
theorem put (o : RputArgs) : Statement (.put o) := RputArgs_words_fits (by decide) o
theorem stream (o : SReg) : Statement (.stream o) :=
  fits_two (sclWord_lt (by decide) (by decide) (by decide) (Nat.lt_of_lt_of_le (Fin.isLt o) (by decide)) (by decide) (by decide)) (mWord_lt (by decide) (by decide) (by decide) (by decide))
theorem vatset (o : SReg) : Statement (.vatset o) := saWords_fits (by decide) o
theorem relaunch (o : SReg) : Statement (.relaunch o) := saWords_fits (by decide) o
theorem bulkDataIngress (o : BulkData) : Statement (.bulkDataIngress o) := fits_nil
theorem spillFillComplete (o : GangRef) : Statement (.spillFillComplete o) := fits_nil
theorem lateSourceRead (o : OpRef) : Statement (.lateSourceRead o) := fits_nil
theorem patchVersioned : Statement .patchVersioned := fits_nil
theorem patchInPlace : Statement .patchInPlace := fits_nil
theorem accessControlEntryWrite : Statement .accessControlEntryWrite := fits_nil
theorem partitionDescriptorWrite : Statement .partitionDescriptorWrite := fits_nil
theorem partitionControlWrite : Statement .partitionControlWrite := fits_nil
theorem scratchpadAllocationWrite : Statement .scratchpadAllocationWrite := fits_nil
theorem rootTableWrite : Statement .rootTableWrite := fits_nil
theorem keySlotLoad : Statement .keySlotLoad := fits_nil
theorem faultRingWrite : Statement .faultRingWrite := fits_nil
theorem traceRingWrite : Statement .traceRingWrite := fits_nil
theorem swapPolicySet : Statement .swapPolicySet := fits_nil
theorem coreRetireGrantSet : Statement .coreRetireGrantSet := fits_nil
theorem invalidateRange : Statement .invalidateRange := fits_nil
theorem partitionReset : Statement .partitionReset := fits_nil
theorem dieReset : Statement .dieReset := fits_nil
theorem clusterRebuild : Statement .clusterRebuild := fits_nil
theorem clusterRelease : Statement .clusterRelease := fits_nil
theorem debugResume : Statement .debugResume := fits_nil
theorem debugStep : Statement .debugStep := fits_nil
theorem debugTerminate : Statement .debugTerminate := fits_nil
theorem patchSubmit : Statement .patchSubmit := fits_nil
theorem powerLimitSet : Statement .powerLimitSet := fits_nil
theorem counterRead : Statement .counterRead := fits_nil
theorem attestationReport : Statement .attestationReport := fits_nil
theorem thermalResume : Statement .thermalResume := fits_nil
theorem journalClear : Statement .journalClear := fits_nil
theorem ownerEndpointChange : Statement .ownerEndpointChange := fits_nil
theorem dieOutOfService : Statement .dieOutOfService := fits_nil
theorem migrationSubmit : Statement .migrationSubmit := fits_nil
theorem splinterPoolSet : Statement .splinterPoolSet := fits_nil
theorem swapPoolSet : Statement .swapPoolSet := fits_nil
theorem unknownOp : Statement .unknownOp := fits_nil
theorem regang : Statement .regang :=
  fits_one (sclWord_lt (by decide) (by decide) (by decide) (by decide) (by decide) (by decide))
theorem yield : Statement .yield :=
  fits_one (sclWord_lt (by decide) (by decide) (by decide) (by decide) (by decide) (by decide))
theorem exit : Statement .exit :=
  fits_one (sclWord_lt (by decide) (by decide) (by decide) (by decide) (by decide) (by decide))
theorem ienter : Statement .ienter :=
  fits_one (sclWord_lt (by decide) (by decide) (by decide) (by decide) (by decide) (by decide))
theorem brk : Statement .brk := fits_one (sclWord_lt (by decide) (by decide) (by decide) (by decide) (by decide) (by decide))
theorem powerLoss : Statement .powerLoss := fits_nil

end Sys2Proof.Laws.WordsFit
end

