-- ==== Sys2Proof/Tests/Encodings.lean ====
section
/-! SUPPORT. One word or more for every instruction that has an encoding, its fields written out from left to right as R143,
R148, R151 to R157 lay them out and with the opcodes of R160 and R161, and the instruction it stands for. -/

set_option Elab.async false

namespace Sys2Proof.Tests

/-- The primary and the extension word decode to the instruction. -/
def decodes (l : List (Nat × Nat × Instr)) : Bool := l.all fun p => decodeTableWord 64 (p.1 + 2 ^ 32 * p.2.1) == some p.2.2

/-- The guard (!p2). -/
def q : Guard := ⟨2, true⟩

theorem test_words_lane_arithmetic_1 : decodes [
    (0b0_0_0000001_100101_010110_001001_010_1_0, 0, .addI32 ⟨q, 37, 22, 9⟩),
    (0b0_1_0000001_100101_010110_000000_010_1_0, 0x89ABCDEF, .addI32Imm ⟨q, 37, 22, 0x89ABCDEF⟩),
    (0b0_0_0000010_100101_010110_001001_010_1_0, 0, .subI32 ⟨q, 37, 22, 9⟩),
    (0b0_1_0000010_100101_010110_000000_010_1_0, 0x89ABCDEF, .subI32Imm ⟨q, 37, 22, 0x89ABCDEF⟩),
    (0b0_0_0000011_100101_010110_001001_010_1_0, 0, .mulI32 ⟨q, 37, 22, 9⟩),
    (0b0_1_0000011_100101_010110_000000_010_1_0, 0x89ABCDEF, .mulI32Imm ⟨q, 37, 22, 0x89ABCDEF⟩),
    (0b0_0_0000100_100101_010110_001001_010_1_0, 0, .mulhiI32 ⟨q, 37, 22, 9⟩),
    (0b0_1_0000100_100101_010110_000000_010_1_0, 0x89ABCDEF, .mulhiI32Imm ⟨q, 37, 22, 0x89ABCDEF⟩),
    (0b0_0_0000101_100101_010110_001001_010_1_0, 0, .mulhiN32 ⟨q, 37, 22, 9⟩),
    (0b0_1_0000101_100101_010110_000000_010_1_0, 0x89ABCDEF, .mulhiN32Imm ⟨q, 37, 22, 0x89ABCDEF⟩),
    (0b0_0_0000110_100101_010110_001001_010_1_0, 0, .minI32 ⟨q, 37, 22, 9⟩),
    (0b0_1_0000110_100101_010110_000000_010_1_0, 0x89ABCDEF, .minI32Imm ⟨q, 37, 22, 0x89ABCDEF⟩),
    (0b0_0_0000111_100101_010110_001001_010_1_0, 0, .maxI32 ⟨q, 37, 22, 9⟩),
    (0b0_1_0000111_100101_010110_000000_010_1_0, 0x89ABCDEF, .maxI32Imm ⟨q, 37, 22, 0x89ABCDEF⟩)] = true := by
  decide +kernel

theorem test_words_lane_arithmetic_2 : decodes [
    (0b0_0_0001000_100101_010110_001001_010_1_0, 0, .minN32 ⟨q, 37, 22, 9⟩),
    (0b0_1_0001000_100101_010110_000000_010_1_0, 0x89ABCDEF, .minN32Imm ⟨q, 37, 22, 0x89ABCDEF⟩),
    (0b0_0_0001001_100101_010110_001001_010_1_0, 0, .maxN32 ⟨q, 37, 22, 9⟩),
    (0b0_1_0001001_100101_010110_000000_010_1_0, 0x89ABCDEF, .maxN32Imm ⟨q, 37, 22, 0x89ABCDEF⟩)] = true := by
  decide +kernel

theorem test_words_lane_logic_1 : decodes [
    (0b0_0_0001010_100101_010110_001001_010_1_0, 0, .and ⟨q, 37, 22, 9⟩),
    (0b0_1_0001010_100101_010110_000000_010_1_0, 0x89ABCDEF, .andImm ⟨q, 37, 22, 0x89ABCDEF⟩),
    (0b0_0_0001011_100101_010110_001001_010_1_0, 0, .or ⟨q, 37, 22, 9⟩),
    (0b0_1_0001011_100101_010110_000000_010_1_0, 0x89ABCDEF, .orImm ⟨q, 37, 22, 0x89ABCDEF⟩),
    (0b0_0_0001100_100101_010110_001001_010_1_0, 0, .xor ⟨q, 37, 22, 9⟩),
    (0b0_1_0001100_100101_010110_000000_010_1_0, 0x89ABCDEF, .xorImm ⟨q, 37, 22, 0x89ABCDEF⟩),
    (0b0_0_0001101_100101_010110_001001_010_1_0, 0, .andn ⟨q, 37, 22, 9⟩),
    (0b0_1_0001101_100101_010110_000000_010_1_0, 0x89ABCDEF, .andnImm ⟨q, 37, 22, 0x89ABCDEF⟩),
    (0b0_0_0001110_100101_010110_001001_010_1_0, 0, .shl ⟨q, 37, 22, 9⟩),
    (0b0_1_0001110_100101_010110_000000_010_1_0, 0b11001, .shlImm ⟨q, 37, 22, 25⟩),
    (0b0_0_0001111_100101_010110_001001_010_1_0, 0, .shrN32 ⟨q, 37, 22, 9⟩),
    (0b0_1_0001111_100101_010110_000000_010_1_0, 0b11001, .shrN32Imm ⟨q, 37, 22, 25⟩),
    (0b0_0_0010000_100101_010110_001001_010_1_0, 0, .shrI32 ⟨q, 37, 22, 9⟩),
    (0b0_1_0010000_100101_010110_000000_010_1_0, 0b11001, .shrI32Imm ⟨q, 37, 22, 25⟩)] = true := by
  decide +kernel

theorem test_words_lane_logic_2 : decodes [
    (0b0_0_0010001_100101_010110_001001_010_1_0, 0, .rol ⟨q, 37, 22, 9⟩),
    (0b0_1_0010001_100101_010110_000000_010_1_0, 0b11001, .rolImm ⟨q, 37, 22, 25⟩)] = true := by
  decide +kernel

theorem test_words_lane_unary : decodes [
    (0b0_0_0010010_100101_010110_000000_010_1_0, 0, .popc ⟨q, 37, 22⟩),
    (0b0_0_0010011_100101_010110_000000_010_1_0, 0, .clz ⟨q, 37, 22⟩),
    (0b0_0_0010100_100101_010110_000000_010_1_0, 0, .brev ⟨q, 37, 22⟩),
    (0b0_0_0010101_100101_010110_000000_010_1_0, 0, .mov ⟨q, 37, 22⟩),
    (0b0_0_0010110_100101_010110_000000_010_1_0, 0, .absI32 ⟨q, 37, 22⟩),
    (0b0_0_0010111_100101_010110_000000_010_1_0, 0, .negI32 ⟨q, 37, 22⟩),
    (0b0_1_0010101_100101_000000_000000_010_1_0, 0x89ABCDEF, .movImm ⟨q, 37, 0x89ABCDEF⟩)] = true := by
  decide +kernel

theorem test_words_compares_1 : decodes [
    (0b0_0_0011000_000101_010110_001001_010_1_0, 0, .seteqI32 ⟨q, 5, 22, 9⟩),
    (0b0_1_0011000_000101_010110_000000_010_1_0, 0x89ABCDEF, .seteqI32Imm ⟨q, 5, 22, 0x89ABCDEF⟩),
    (0b0_0_0011001_000101_010110_001001_010_1_0, 0, .setneI32 ⟨q, 5, 22, 9⟩),
    (0b0_1_0011001_000101_010110_000000_010_1_0, 0x89ABCDEF, .setneI32Imm ⟨q, 5, 22, 0x89ABCDEF⟩),
    (0b0_0_0011010_000101_010110_001001_010_1_0, 0, .setltI32 ⟨q, 5, 22, 9⟩),
    (0b0_1_0011010_000101_010110_000000_010_1_0, 0x89ABCDEF, .setltI32Imm ⟨q, 5, 22, 0x89ABCDEF⟩),
    (0b0_0_0011011_000101_010110_001001_010_1_0, 0, .setleI32 ⟨q, 5, 22, 9⟩),
    (0b0_1_0011011_000101_010110_000000_010_1_0, 0x89ABCDEF, .setleI32Imm ⟨q, 5, 22, 0x89ABCDEF⟩),
    (0b0_0_0011100_000101_010110_001001_010_1_0, 0, .setltN32 ⟨q, 5, 22, 9⟩),
    (0b0_1_0011100_000101_010110_000000_010_1_0, 0x89ABCDEF, .setltN32Imm ⟨q, 5, 22, 0x89ABCDEF⟩),
    (0b0_0_0011101_000101_010110_001001_010_1_0, 0, .setleN32 ⟨q, 5, 22, 9⟩),
    (0b0_1_0011101_000101_010110_000000_010_1_0, 0x89ABCDEF, .setleN32Imm ⟨q, 5, 22, 0x89ABCDEF⟩),
    (0b0_0_0011110_000101_010110_001001_010_1_0, 0, .setgtI32 ⟨q, 5, 22, 9⟩),
    (0b0_1_0011110_000101_010110_000000_010_1_0, 0x89ABCDEF, .setgtI32Imm ⟨q, 5, 22, 0x89ABCDEF⟩)] = true := by
  decide +kernel

theorem test_words_compares_2 : decodes [
    (0b0_0_0011111_000101_010110_001001_010_1_0, 0, .setgtN32 ⟨q, 5, 22, 9⟩),
    (0b0_1_0011111_000101_010110_000000_010_1_0, 0x89ABCDEF, .setgtN32Imm ⟨q, 5, 22, 0x89ABCDEF⟩)] = true := by
  decide +kernel

theorem test_words_predicates : decodes [
    (0b0_0_0100000_000101_000110_000000_010_1_0, 0, .pmov ⟨q, 5, 6⟩),
    (0b0_0_0100001_000101_000110_000000_010_1_0, 0, .pnot ⟨q, 5, 6⟩),
    (0b0_0_0100010_000101_000110_000111_010_1_0, 0, .pand ⟨q, 5, 6, 7⟩),
    (0b0_0_0100011_000101_000110_000111_010_1_0, 0, .por ⟨q, 5, 6, 7⟩),
    (0b0_0_0100100_000101_000110_000111_010_1_0, 0, .pxor ⟨q, 5, 6, 7⟩),
    (0b0_0_0100101_100101_000110_000000_010_1_0, 0, .ptoi ⟨q, 37, 6⟩),
    (0b0_0_0100110_100101_000000_000000_010_1_0, 0, .lid ⟨q, 37, .lane⟩),
    (0b0_0_0100110_100101_000001_000000_010_1_0, 0, .lid ⟨q, 37, .plane⟩),
    (0b0_0_0100110_100101_000010_000000_010_1_0, 0, .lid ⟨q, 37, .position⟩)] = true := by
  decide +kernel

theorem test_words_typed : decodes [
    (0b0_1_0101000_100101_010110_001001_010_1_0, 0b000000_1010_0000_010_1_00000000000000, .addTyped ⟨q, .f32, .rz, true, 37, 22, 9⟩),
    (0b0_1_0101001_100110_010110_001000_010_1_0, 0b000000_0011_0000_000_0_00000000000000, .subTyped ⟨q, .i64, .mode, false, 38, 22, 8⟩),
    (0b0_1_0101010_100101_010110_001001_010_1_0, 0b000000_0100_0000_000_1_00000000000000, .mulTyped ⟨q, .n8, .mode, true, 37, 22, 9⟩),
    (0b0_1_0101011_100101_010110_001001_010_1_0, 0b110011_1010_0000_101_0_00000000000000, .mad ⟨q, .f32, .ra, false, 37, 22, 9, 51⟩),
    (0b0_1_0101100_100101_010110_001001_010_1_0, 0b000000_1001_0000_000_0_00000000000000, .minTyped ⟨q, .bf16, 37, 22, 9⟩),
    (0b0_1_0101101_100101_010110_001001_010_1_0, 0b000000_0101_0000_000_0_00000000000000, .maxTyped ⟨q, .n16, 37, 22, 9⟩),
    (0b0_1_0101110_000101_010110_001001_010_1_0, 0b000000_1000_0000_000_0_00000000000010, .setcc ⟨q, .f16, .lt, 5, 22, 9⟩),
    (0b0_1_0101110_000101_010110_001001_010_1_0, 0b000000_1000_0000_000_0_00000000000110, .setcc ⟨q, .f16, .un, 5, 22, 9⟩),
    (0b0_1_0101111_100101_010110_001001_010_1_0, 0b000000_0001_0000_000_0_00000000000000, .shlTyped ⟨q, .i16, 37, 22, 9⟩),
    (0b0_1_0101111_100110_010110_001001_010_1_0, 0b000000_0111_0000_000_0_00000000000001, .shrTyped ⟨q, .n64, 38, 22, 9⟩),
    (0b0_1_0110000_100101_010110_000000_010_1_0, 0b000000_0010_0000_000_1_00000000000000, .negTyped ⟨q, .i32, true, 37, 22⟩),
    (0b0_1_0110001_100101_010110_000000_010_1_0, 0b000000_0010_0000_000_1_00000000000000, .absTyped ⟨q, .i32, true, 37, 22⟩)] = true := by
  decide +kernel

theorem test_words_typed_float : decodes [
    (0b0_1_0110010_100110_010110_001000_010_1_0, 0b000000_1011_0000_100_1_00000000000000, .div ⟨q, .f64, .ru, true, 38, 22, 8⟩),
    (0b0_1_0110011_100101_010110_000000_010_1_0, 0b000000_1000_0000_011_0_00000000000000, .sqrt ⟨q, .f16, .rd, false, 37, 22⟩),
    (0b0_1_0110100_100101_010110_000000_010_1_0, 0b000000_1101_1010_010_1_00000000000000, .cvt ⟨q, .e5m2, .f32, .rz, true, 37, 22⟩),
    (0b0_1_0110101_100101_010110_000000_010_1_0, 0b000000_1001_0000_001_0_00000000000000, .rndi ⟨q, .bf16, .rn, 37, 22⟩),
    (0b0_1_0110110_100101_010110_000000_010_1_0, 0b000000_1011_0000_000_0_00000000000000, .fclass ⟨q, .f64, 37, 22⟩),
    (0b0_1_0111000_100101_010110_000000_010_1_0, 0b000000_1000_0000_000_0_00000000000000, .sin ⟨q, .f16, 37, 22⟩),
    (0b0_1_0111001_100101_010110_000000_010_1_0, 0b000000_1010_0000_000_0_00000000000000, .cos ⟨q, .f32, 37, 22⟩),
    (0b0_1_0111010_100101_010110_000000_010_1_0, 0b000000_1000_0000_000_0_00000000000000, .rcp ⟨q, .f16, 37, 22⟩),
    (0b0_1_0111011_100101_010110_000000_010_1_0, 0b000000_1010_0000_000_0_00000000000000, .rsq ⟨q, .f32, 37, 22⟩),
    (0b0_1_0111100_100101_010110_000000_010_1_0, 0b000000_1000_0000_000_0_00000000000000, .exp2 ⟨q, .f16, 37, 22⟩),
    (0b0_1_0111101_100101_010110_000000_010_1_0, 0b000000_1010_0000_000_0_00000000000000, .log2 ⟨q, .f32, 37, 22⟩),
    (0b0_1_0111110_100101_010110_001001_010_1_0, 0b110011_0010_0100_000_1_00000000000000, .dp4 ⟨q, .n8, true, 37, 22, 9, 51⟩)] = true := by
  decide +kernel

theorem test_words_permutes : decodes [
    (0b0_0_1000000_100101_010110_001001_010_1_0, 0, .shfl ⟨q, 37, 22, 9⟩),
    (0b0_0_1000001_100101_010110_011111_010_1_0, 0, .swap ⟨q, 37, 22, 31⟩),
    (0b0_0_1000010_100101_010110_001001_010_1_0, 0, .bcast ⟨q, 37, 22, 9⟩),
    (0b0_1_1000010_100101_010110_000000_010_1_0, 0x89ABCDEF, .bcastImm ⟨q, 37, 22, 0x89ABCDEF⟩),
    (0b0_0_1000011_100101_010110_001001_010_1_0, 0, .rot ⟨q, 37, 22, 9⟩),
    (0b0_1_1000011_100101_010110_000000_010_1_0, 0x89ABCDEF, .rotImm ⟨q, 37, 22, 0x89ABCDEF⟩),
    (0b0_1_1000100_100101_010110_001001_010_1_0, 0b110011_0000_0000_000_0_00000000000000, .prmt ⟨q, 37, 22, 9, 51⟩),
    (0b0_0_1000101_100101_010110_001001_010_1_0, 0, .pack ⟨q, 37, 22, 9⟩)] = true := by
  decide +kernel

theorem test_words_lane_memory : decodes [
    (0b0_1_1001000_100101_010110_000000_010_1_0, 0b000000_1100_01_011_0000_000_0_000000000, .ld ⟨q, .e4m3, .acq, .die, 37, 22⟩),
    (0b0_1_1001001_000000_010110_001001_010_1_0, 0b000000_0101_10_010_0000_000_0_000000000, .st ⟨q, .n16, .rel, .core, 22, 9⟩),
    (0b0_1_1001010_100101_010110_001001_010_1_0, 0b000000_1010_11_001_0000_100_0_000000000, .atom ⟨q, .add, .f32, .ru, .ar, .team, 37, 22, 9⟩),
    (0b0_1_1001010_100100_010110_001000_010_1_0, 0b000000_0011_00_010_0110_000_0_000000000, .atom ⟨q, .exch, .i64, .mode, .relaxed, .core, 36, 22, 8⟩),
    (0b0_1_1001011_100101_010110_001001_010_1_0, 0b110011_0010_01_000_0000_000_0_000000000, .cas ⟨q, .i32, .acq, .grp, 37, 22, 9, 51⟩),
    (0b0_0_1011000_000000_010110_001001_010_1_0, 0, .deposit ⟨q, 22, 9⟩),
    (0b0_1_1010000_100110_010110_000000_010_1_1, 0b101100_011010_10_000_0_000_00000000000, .mma ⟨q, true, 38, 22, 44, 26, 2⟩),
    (0b0_1_1010001_100101_010110_000000_010_1_0, 0b101100_011010_01_000_0_110_00000000000, .mmv ⟨q, false, 37, 22, 44, 26, 6⟩),
    (0b0_1_1010010_100110_010110_000000_010_1_1, 0b101100_011010_01_000_0_000_00000000000, .mmas ⟨q, true, 38, 22, 44, 26, 1⟩)] = true := by
  decide +kernel

theorem test_words_scalar32_1 : decodes [
    (0b1_0_0000010_100101_010110_001001_00000, 0, .saddI32 ⟨37, 22, 9⟩),
    (0b1_1_0000010_100101_010110_000000_00000, 0x89ABCDEF, .saddI32Imm ⟨37, 22, 0x89ABCDEF⟩),
    (0b1_0_0000011_100101_010110_001001_00000, 0, .ssubI32 ⟨37, 22, 9⟩),
    (0b1_1_0000011_100101_010110_000000_00000, 0x89ABCDEF, .ssubI32Imm ⟨37, 22, 0x89ABCDEF⟩),
    (0b1_0_0000100_100101_010110_001001_00000, 0, .smulI32 ⟨37, 22, 9⟩),
    (0b1_1_0000100_100101_010110_000000_00000, 0x89ABCDEF, .smulI32Imm ⟨37, 22, 0x89ABCDEF⟩),
    (0b1_0_0000101_100101_010110_001001_00000, 0, .smulhiI32 ⟨37, 22, 9⟩),
    (0b1_1_0000101_100101_010110_000000_00000, 0x89ABCDEF, .smulhiI32Imm ⟨37, 22, 0x89ABCDEF⟩),
    (0b1_0_0000110_100101_010110_001001_00000, 0, .smulhiN32 ⟨37, 22, 9⟩),
    (0b1_1_0000110_100101_010110_000000_00000, 0x89ABCDEF, .smulhiN32Imm ⟨37, 22, 0x89ABCDEF⟩),
    (0b1_0_0000111_100101_010110_001001_00000, 0, .sminI32 ⟨37, 22, 9⟩),
    (0b1_1_0000111_100101_010110_000000_00000, 0x89ABCDEF, .sminI32Imm ⟨37, 22, 0x89ABCDEF⟩),
    (0b1_0_0001000_100101_010110_001001_00000, 0, .smaxI32 ⟨37, 22, 9⟩),
    (0b1_1_0001000_100101_010110_000000_00000, 0x89ABCDEF, .smaxI32Imm ⟨37, 22, 0x89ABCDEF⟩)] = true := by
  decide +kernel

theorem test_words_scalar32_2 : decodes [
    (0b1_0_0001001_100101_010110_001001_00000, 0, .sshl ⟨37, 22, 9⟩),
    (0b1_1_0001001_100101_010110_000000_00000, 0b11001, .sshlImm ⟨37, 22, 25⟩),
    (0b1_0_0001010_100101_010110_001001_00000, 0, .sshrN32 ⟨37, 22, 9⟩),
    (0b1_1_0001010_100101_010110_000000_00000, 0b11001, .sshrN32Imm ⟨37, 22, 25⟩),
    (0b1_0_0001011_100101_010110_001001_00000, 0, .sshrI32 ⟨37, 22, 9⟩),
    (0b1_1_0001011_100101_010110_000000_00000, 0b11001, .sshrI32Imm ⟨37, 22, 25⟩),
    (0b1_0_0001100_100101_010110_001001_00000, 0, .sand ⟨37, 22, 9⟩),
    (0b1_1_0001100_100101_010110_000000_00000, 0x89ABCDEF, .sandImm ⟨37, 22, 0x89ABCDEF⟩),
    (0b1_0_0001101_100101_010110_001001_00000, 0, .sor ⟨37, 22, 9⟩),
    (0b1_1_0001101_100101_010110_000000_00000, 0x89ABCDEF, .sorImm ⟨37, 22, 0x89ABCDEF⟩),
    (0b1_0_0001110_100101_010110_001001_00000, 0, .sxor ⟨37, 22, 9⟩),
    (0b1_1_0001110_100101_010110_000000_00000, 0x89ABCDEF, .sxorImm ⟨37, 22, 0x89ABCDEF⟩),
    (0b1_0_0001111_100101_010110_001001_00000, 0, .sandn ⟨37, 22, 9⟩),
    (0b1_1_0001111_100101_010110_000000_00000, 0x89ABCDEF, .sandnImm ⟨37, 22, 0x89ABCDEF⟩)] = true := by
  decide +kernel

theorem test_words_scalar32_3 : decodes [
    (0b1_0_0010000_100101_010110_001001_00000, 0, .sminN32 ⟨37, 22, 9⟩),
    (0b1_1_0010000_100101_010110_000000_00000, 0x89ABCDEF, .sminN32Imm ⟨37, 22, 0x89ABCDEF⟩),
    (0b1_0_0010001_100101_010110_001001_00000, 0, .smaxN32 ⟨37, 22, 9⟩),
    (0b1_1_0010001_100101_010110_000000_00000, 0x89ABCDEF, .smaxN32Imm ⟨37, 22, 0x89ABCDEF⟩)] = true := by
  decide +kernel

theorem test_words_scalar_moves_1 : decodes [
    (0b1_0_0000001_100101_010110_000000_00000, 0, .smovI32 ⟨37, 22⟩),
    (0b1_1_0000001_100101_000000_000000_00000, 0x89ABCDEF, .smovI32Imm ⟨37, 0x89ABCDEF⟩),
    (0b1_0_0010010_100101_010110_000000_00000, 0, .spopc ⟨37, 22⟩),
    (0b1_0_0010011_100101_010110_000000_00000, 0, .sclz ⟨37, 22⟩),
    (0b1_0_0010100_100101_010110_001001_01001, 0, .scmpI32 ⟨.ltu, 37, 22, 9⟩),
    (0b1_1_0010100_100101_010110_000000_00111, 0x89ABCDEF, .scmpI32Imm ⟨.lt, 37, 22, 0x89ABCDEF⟩),
    (0b1_0_0011000_100100_010110_000000_00000, 0, .smovI64 ⟨36, 22⟩),
    (0b1_1_0011000_100100_000000_000000_00000, 0x89ABCDEF, .smovI64Imm ⟨36, 0x89ABCDEF⟩),
    (0b1_0_0011001_100100_010110_001000_00000, 0, .saddI64 ⟨36, 22, 8⟩),
    (0b1_1_0011001_100100_010110_000000_00000, 0x89ABCDEF, .saddI64Imm ⟨36, 22, 0x89ABCDEF⟩),
    (0b1_0_0011010_100100_010110_001000_00000, 0, .ssubI64 ⟨36, 22, 8⟩),
    (0b1_1_0011010_100100_010110_000000_00000, 0x89ABCDEF, .ssubI64Imm ⟨36, 22, 0x89ABCDEF⟩),
    (0b1_0_0011011_100100_010110_001000_00000, 0, .smulI64 ⟨36, 22, 8⟩),
    (0b1_1_0011011_100100_010110_000000_00000, 0x89ABCDEF, .smulI64Imm ⟨36, 22, 0x89ABCDEF⟩)] = true := by
  decide +kernel

theorem test_words_scalar_moves_2 : decodes [
    (0b1_0_0011100_100100_010110_001001_00000, 0, .sshlN64 ⟨36, 22, 9⟩),
    (0b1_1_0011100_100100_010110_000000_00000, 0b111001, .sshlN64Imm ⟨36, 22, 57⟩),
    (0b1_0_0011101_100100_010110_001001_00000, 0, .sshrN64 ⟨36, 22, 9⟩),
    (0b1_1_0011101_100100_010110_000000_00000, 0b111001, .sshrN64Imm ⟨36, 22, 57⟩),
    (0b1_0_0011110_100101_010110_001000_01010, 0, .scmpI64 ⟨.geu, 37, 22, 8⟩)] = true := by
  decide +kernel

theorem test_words_branches : decodes [
    (0b1_1_0100000_000000_000000_000000_00000, 0xFFFFFFC4, .bra ⟨.always, 0xFFFFFFC4⟩),
    (0b1_1_0100000_000000_010110_000000_00001, 0xFFFFFFC4, .bra ⟨.z 22, 0xFFFFFFC4⟩),
    (0b1_1_0100000_000000_010110_000000_00010, 0xFFFFFFC4, .bra ⟨.nz 22, 0xFFFFFFC4⟩),
    (0b1_1_0100000_000000_010110_000000_00011, 0xFFFFFFC4, .bra ⟨.ltz 22, 0xFFFFFFC4⟩),
    (0b1_1_0100000_000000_010110_000000_00100, 0xFFFFFFC4, .bra ⟨.gez 22, 0xFFFFFFC4⟩),
    (0b1_1_0100000_000000_010110_001001_00101, 0xFFFFFFC4, .bra ⟨.cmp .eq 22 9, 0xFFFFFFC4⟩),
    (0b1_1_0100000_000000_010110_001001_00110, 0xFFFFFFC4, .bra ⟨.cmp .ne 22 9, 0xFFFFFFC4⟩),
    (0b1_1_0100000_000000_010110_001001_00111, 0xFFFFFFC4, .bra ⟨.cmp .lt 22 9, 0xFFFFFFC4⟩),
    (0b1_1_0100000_000000_010110_001001_01000, 0xFFFFFFC4, .bra ⟨.cmp .ge 22 9, 0xFFFFFFC4⟩),
    (0b1_1_0100000_000000_010110_001001_01001, 0xFFFFFFC4, .bra ⟨.cmp .ltu 22 9, 0xFFFFFFC4⟩),
    (0b1_1_0100000_000000_010110_001001_01010, 0xFFFFFFC4, .bra ⟨.cmp .geu 22 9, 0xFFFFFFC4⟩),
    (0b1_1_0100000_000000_000000_000000_01011, 0xFFFFFFC4, .bra ⟨.none, 0xFFFFFFC4⟩),
    (0b1_1_0100000_000000_000000_000000_01100, 0xFFFFFFC4, .bra ⟨.any, 0xFFFFFFC4⟩),
    (0b1_1_0100000_000000_000000_000000_01101, 0xFFFFFFC4, .bra ⟨.all, 0xFFFFFFC4⟩)] = true := by
  decide +kernel

theorem test_words_control_1 : decodes [
    (0b1_1_0100001_100101_000000_010000_00000, 0x14, .call ⟨37, 16, 0x14⟩),
    (0b1_0_0100010_000000_010110_000000_00000, 0, .ret 22),
    (0b1_0_0100011_000000_010110_000000_00000, 0, .join 22),
    (0b1_0_0100100_100101_000000_000000_01101, 0, .msplit ⟨37, 5, true⟩),
    (0b1_0_0100101_000000_010110_000000_00000, 0, .melse 22),
    (0b1_0_0100110_000000_000000_000000_00000, 0, .regang),
    (0b1_0_0100111_000000_010110_000000_00000, 0, .splane 22),
    (0b1_0_0101000_000000_000000_000000_00000, 0, .yield),
    (0b1_0_0101001_000000_000000_000000_00000, 0, .exit),
    (0b1_0_0101010_100101_000000_000000_00000, 0, .smodeRd 37),
    (0b1_0_0101010_000000_010110_000000_00001, 0, .smodeWr 22),
    (0b1_0_0101010_100101_000000_000000_00010, 0, .smodeClr 37),
    (0b1_0_0101010_000000_010110_000000_00011, 0, .smodeRm 22),
    (0b1_0_0101011_100101_000000_000000_01100, 0, .sid ⟨37, .partition⟩)] = true := by
  decide +kernel

theorem test_words_control_2 : decodes [
    (0b1_1_0101100_100101_000000_000000_00000, 0b111100, .ldarg ⟨37, 15⟩),
    (0b1_1_0101101_000000_000000_000000_00000, 0x89ABCDEF, .sigchk 0x89ABCDEF),
    (0b1_0_0101110_000000_000000_000000_00000, 0, .ienter),
    (0b1_1_0101111_000000_000000_000000_00000, 0xCDEF, .trap 0xCDEF)] = true := by
  decide +kernel

theorem test_words_system : decodes [
    (0b1_0_1001000_000000_000000_000000_00000, 0, .brk),
    (0b1_1_1001001_000000_000000_000000_00000, 0x89ABCDEF, .mark 0x89ABCDEF),
    (0b1_0_1001010_000000_010110_000000_00000, 0, .patchreq 22),
    (0b1_0_1001011_000000_010110_000000_00000, 0, .tclk 22),
    (0b1_0_1001100_100100_010111_000000_00000, 0, .sysrd ⟨36, 23⟩),
    (0b1_0_1001101_000000_100101_010110_00000, 0, .syswr ⟨37, 22⟩),
    (0b1_0_1000000_000000_010110_000000_00000, 0, .vatset 22),
    (0b1_0_1000001_000000_010110_000000_00000, 0, .relaunch 22),
    (0b1_0_1111111_101001011001_1011_0110_101, 0, .clauseHeader ⟨0xA59, some 11, some 6, 5⟩)] = true := by
  decide +kernel

theorem test_words_scalar_memory_1 : decodes [
    (0b1_1_0110000_100101_010110_000000_00000, 0b000000_0101_01_100_0000_000_0_000000000, .sld ⟨.n16, .acq, .pkg, 37, 22⟩),
    (0b1_1_0110001_000000_010110_001000_00000, 0b000000_0111_10_100_0000_000_0_000000000, .sst ⟨.n64, .rel, .pkg, 22, 8⟩),
    (0b1_1_0110010_100101_010110_001001_00000, 0b000000_0110_11_100_0101_000_0_000000000, .satom ⟨.xor, .n32, .mode, .ar, .pkg, 37, 22, 9⟩),
    (0b1_1_0110011_100100_010110_001000_00000, 0b110010_0111_00_011_0000_000_0_000000000, .scas ⟨.n64, .relaxed, .die, 36, 22, 8, 50⟩),
    (0b1_1_0110100_000000_000000_000000_00000, 0b000000_0000_11_101_0000_000_0_000100101, .fence ⟨.ar, .fab, 0b100101⟩),
    (0b1_0_0110101_000000_010110_000000_00011, 0, .waitp ⟨.stream, 22⟩),
    (0b1_1_0110110_100101_010110_001001_00000, 0b000000_0010_01_100_0011_000_0_000000000, .waitv ⟨.i32, .acq, .pkg, .ge, 37, 22, 9⟩),
    (0b1_1_1001110_100101_010110_001001_00000, 0b110011_0110_00_000_0001_000_0_000000000, .waitvm ⟨.n32, .relaxed, .grp, .ne, 37, 22, 9, 51⟩),
    (0b1_1_0110111_100101_000000_000000_00000, 0x00640037, .bar ⟨37, 100, 2, 7⟩),
    (0b1_1_0111000_100100_010110_001001_00000, 0, .cpin ⟨36, 22, 9⟩),
    (0b1_1_0111001_100100_010110_001001_00000, 0, .cpout ⟨36, 22, 9⟩),
    (0b1_1_0111010_100100_010110_001000_00000, 0b110010_0000_00_000_0000_000_0_000000000, .gather ⟨36, 22, 8, 50⟩),
    (0b1_1_0111011_100100_010110_001001_00000, 0b110010_1001_00_000_0000_011_1_000000000, .xpand ⟨.bf16, .rd, true, 36, 22, 9, 50⟩),
    (0b1_1_0111100_100100_010110_001001_00000, 0b110010_0000_10_100_0000_000_0_000000000, .rcopy ⟨.rel, .pkg, 36, 22, 9, 50⟩)] = true := by
  decide +kernel

theorem test_words_scalar_memory_2 : decodes [
    (0b1_1_0111101_100100_010110_001001_00000, 0b110010_0000_10_011_0000_000_0_000000000, .put ⟨.rel, .die, 36, 22, 9, 50⟩),
    (0b1_1_0111110_000000_010110_000000_00000, 0b000000_0000_00_000_0000_000_0_000000000, .stream 22)] = true := by
  decide +kernel

/-- The words that the spec's chapters assemble: 08_encoding.md, 09_assembly_idioms.md, 11_lane_instructions.md,
12_scalar_and_control_instructions.md, 14_memory_and_sync_instructions.md and 15_matrix.md. -/
theorem test_words_worked : decodes [
    (0xBF8007F8, 0, .clauseHeader ⟨0, none, none, 0⟩), (0xC0820000, 0xC8, .smovI32Imm ⟨1, 200⟩),
    (0xC1040800, 0x7F, .saddI32Imm ⟨2, 1, 127⟩), (0xC5061000, 7, .sshrN32Imm ⟨3, 2, 7⟩), (0x93803000, 0, .splane 6),
    (0x0084003C, 0, .addI32 ⟨⟨7, false⟩, 2, 0, 1⟩), (0x1002381C, 0, .pmov ⟨⟨7, false⟩, 1, 7⟩),
    (0x0D02107C, 0, .setltI32 ⟨⟨7, false⟩, 1, 2, 3⟩), (0x4082081C, 4, .addI32Imm ⟨⟨7, false⟩, 1, 1, 4⟩),
    (0x5A08101C, 0x02688000, .cvt ⟨⟨7, false⟩, .bf16, .f32, .rn, false, 4, 2⟩), (0xD0001802, 0xFFFFFFE0, .bra ⟨.nz 3, 0xFFFFFFE0⟩),
    (0x8A0E2105, 0, .scmpI32 ⟨.eq, 7, 4, 8⟩), (0xC20C3800, 0x55, .smulI32Imm ⟨6, 7, 0x55⟩), (0x128C081C, 0, .ptoi ⟨⟨7, false⟩, 6, 1⟩),
    (0x540A209C, 0x02808000, .addTyped ⟨⟨7, false⟩, .f32, .rn, false, 5, 4, 4⟩),
    (0x558C085C, 0x0E800000, .mad ⟨⟨7, false⟩, .f32, .mode, false, 6, 1, 2, 3⟩),
    (0x5706107C, 0x02800002, .setcc ⟨⟨7, false⟩, .f32, .lt, 3, 2, 3⟩), (0x5C12401C, 0x02800000, .sin ⟨⟨7, false⟩, .f32, 9, 8⟩),
    (0x5A14101C, 0x0328C000, .cvt ⟨⟨7, false⟩, .e4m3, .f32, .rn, true, 10, 2⟩), (0x208E303C, 0, .swap ⟨⟨7, false⟩, 7, 6, 1⟩),
    (0x1320001C, 0, .lid ⟨⟨7, false⟩, 16, .lane⟩), (0xD0FC0200, 0x14, .call ⟨62, 16, 0x14⟩), (0x94800000, 0, .exit),
    (0x4702001C, 1, .shlImm ⟨⟨7, false⟩, 1, 0, 1⟩), (0x9101F000, 0, .ret 62)] = true := by
  decide +kernel

theorem test_words_worked_memory : decodes [
    (0x6408401C, 0x02800000, .ld ⟨⟨7, false⟩, .f32, .relaxed, .grp, 4, 8⟩),
    (0x650C405C, 0x00820000, .atom ⟨⟨7, false⟩, .add, .i32, .mode, .relaxed, .team, 6, 8, 2⟩),
    (0xD88020C0, 0x01A80000, .sst ⟨.n32, .rel, .pkg, 4, 6⟩), (0xDB0E20C0, 0x01980000, .waitv ⟨.n32, .acq, .pkg, .eq, 7, 4, 6⟩),
    (0xDA000000, 0x00280003, .fence ⟨.rel, .pkg, 3⟩), (0x9A80D000, 0, .waitp ⟨.copyIn, 26⟩), (0xDB8E0000, 0x00640040, .bar ⟨7, 100, 3, 0⟩),
    (0xDC28B300, 0, .cpin ⟨20, 22, 24⟩), (0xDD28B300, 0x70000000, .gather ⟨20, 22, 24, 28⟩),
    (0xDDA8B300, 0x6A400400, .xpand ⟨.bf16, .rn, false, 20, 22, 24, 26⟩), (0xDE1461C0, 0x40280000, .rcopy ⟨.rel, .pkg, 10, 12, 14, 16⟩),
    (0x2C00281C, 0, .deposit ⟨⟨7, false⟩, 5, 0⟩), (0xA0814000, 0, .relaunch 40),
    (0x6850001D, 0x41680000, .mma ⟨⟨7, false⟩, true, 40, 0, 16, 22, 2⟩), (0x6950201C, 0x51800000, .mmas ⟨⟨7, false⟩, false, 40, 4, 20, 24, 0⟩),
    (0x68C0001D, 0x41441000, .mmv ⟨⟨7, false⟩, true, 32, 0, 16, 20, 2⟩), (0xA0006000, 0, .vatset 12),
    (0xD6280000, 0, .ldarg ⟨20, 0⟩)] = true := by
  decide +kernel

/-- Words that 08_encoding.md and 11_lane_instructions.md list as no legal instruction, with the fault of each: illegal instruction,
or an illegal encoding with its field code (R165). -/
theorem test_words_refused : ([
    (0, 0, .illegalInstruction), (0x0084003D, 0, .illegalEncoding 6), (0x0084003E, 0, .illegalEncoding 5),
    (0x0D1E107C, 0, .illegalEncoding 2), (0x93800001, 0, .illegalEncoding 2), (0xFF8007F8, 0, .illegalEncoding 1),
    -- SIN.F64, DIV.I32, RCP.F32 with rm 1, CVT.F32.F32, ADD.F64 into v3, PRMT with type 2
    (0x5C04201C, 0x02C00000, .illegalEncoding 8), (0x5904189C, 0x00800000, .illegalEncoding 8), (0x5D04181C, 0x02808000, .illegalEncoding 9),
    (0x5A04181C, 0x02A80000, .illegalEncoding 8), (0x540620DC, 0x02C00000, .illegalEncoding 4), (0x6204189C, 0x00800000, .illegalEncoding 3)] :
    List (Nat × Nat × Reject)).all (fun p => match decode p.1 p.2.1 with | .ok _ => false | .error r => r == p.2.2) = true := by
  decide +kernel

end Sys2Proof.Tests
end

