-- ==== Sys2Proof/Tests/Scenes.lean ====
section
/-! SUPPORT. Small states in which the hypotheses of the statements are met, and words to say that they are. -/

set_option Elab.async false

namespace Sys2Proof.Tests

open Sys2Proof.Machine

/-- The guard (p7). -/
def always : Guard := ⟨7, false⟩

/-- A launch of teams of groups of a width, with 4 KiB or more of shared memory and 4 KiB of spill stack. -/
def sceneLaunch (width kib : Nat) (privileged : Bool) : Launch :=
  let l := fetchLaunch 0
  { l with privileged := privileged
           header := { l.header with width := width, sharedKiB := kib, spill := 4096, argBytes := 32, tokens := 2 } }

/-- A team of n groups at SADD.I32 s2, s1, 127; f changes the slices. -/
def sceneTeam (width n : Nat) (f : Group → Slice → Slice) : Team :=
  let place : Place := { sub := 0, entry := 0, base := 0, lanePos := 0, start := 0 }
  let group := fun (i : Nat) => (Group.start (sceneLaunch width 4 false) 6 i true place 0 none).mapSlices (Slice.holding 0x0000007FC1040800)
  { fetchTeam 1 0 0 with groups := (List.range n).map fun i => { group i with slices := (group i).slices.map (f (group i)) }, nextGang := 9 }

/-- The machine with a team of two groups of two slices, all in gang 0, which issues. -/
def whole (f : Slice → Slice) : State :=
  { State.reset with teams := [sceneTeam 8 2 fun _ x => f x], launches := [sceneLaunch 8 4 false], nextUid := 2, nextId := 1, cur := { team := 1 } }

/-- The same with slice 0 of group 0 alone in gang 0. -/
def lone (f : Slice → Slice) : State :=
  { whole id with teams := [sceneTeam 8 2 fun g x => if g.num = 0 ∧ x.num = 0 then f x else { x with gang := 5 }] }

/-- A team of one group of two slices, both in gang 0, in a launch with a policy and header flags. -/
def single (policy : BitVec 8) (flags : Nat) (f : Slice → Slice) : State :=
  let l := sceneLaunch 8 4 false
  { whole id with teams := [sceneTeam 8 1 fun _ x => f x], launches := [{ l with policy := policy, header := { l.header with flags := flags } }] }

/-- An operation of slice 0 that has not returned. -/
def sceneOp (job : Job) (p : Option Path) : Op :=
  { id := 3, seq := 0, after := 3, prior := [], job := job, slice := 0, offset := 4, word := 0, ext := 0, path := p, rflag := some 1,
    sflag := none, lateRead := false, returned := false, fault := none, parked := none, landing := none, early := [] }

def withOp (s : State) (job : Job) (p : Option Path) : State := s.updGroup 1 0 fun g => { g with ops := [sceneOp job p], nextOp := 4 }

/-- The same in a launch that is privileged. -/
def lonePrivileged (f : Slice → Slice) : State := { lone f with launches := [sceneLaunch 8 4 true] }

/-- A scalar pair. -/
def setPair (a : SReg) (v : DWord) (x : Slice) : Slice := (x.setS a (lowWord v)).setS (up a) (highWord v)

/-- A pair of lane registers that holds the same in every lane. -/
def setLanes (a : LReg) (v : DWord) (x : Slice) : Slice :=
  x.mapLanes fun _ l => (l.put a.val (lowWord v) false).put (a.val + 1) (highWord v) false

/-- Generic addresses of the three apertures. -/
def inShared (off : Nat) : DWord := BitVec.ofNat 64 (0xFFFF * 2 ^ 48 + off)
def inStack (off : Nat) : DWord := BitVec.ofNat 64 (0xFFFE * 2 ^ 48 + off)
def inScratch (off : Nat) : DWord := BitVec.ofNat 64 (0xFFFD * 2 ^ 48 + off)

/-- Partition 0 has 2 MiB of the scratchpad of die 0 from 3 MiB on, and 1 MiB of that of die 1 from 5 MiB on. -/
def allotted (s : State) : State :=
  s.updPart 0 fun p => { p with scratch := (p.scratch.set 0 0x0000000300020000).set 1 0x0000000500010000 }

/-- Partition 0 is enabled, owns key slots 4 and 5, and has keys there. -/
def keyed (s : State) : State :=
  { s.updPart 0 fun p => { p with descriptor := 0x8000000000000000#64 ||| BitVec.ofNat 64 (4 * 2 ^ 40 + 2 * 2 ^ 32 + 64 * 4096) } with
    keys := (s.keys.set 4 (some 1)).set 5 (some 2) }

/-- A leaf: valid, readable and writable under key 5, at a frame of a tier, in a state. -/
def leafAt (frame place state : Nat) : DWord := BitVec.ofNat 64 (7 + place * 64 + state * 1024 + frame + 5 * 2 ^ 48)

/-- The lowest four pages of the window of partition 0 are mapped: two in HBM4E, one interleaved, one home page whose copy is shared. -/
def mapped (s : State) : State :=
  let s := (keyed s).updPart 0 fun p => { p with root := 0x10001 }
  let tables := (((s.putEntry 0 0x10000 0x11011).putEntry 0 0x11000 0x12011).putEntry 0 0x12000 0x13011).putEntry 0 0x13000 0x14011
  (((tables.putEntry 0 0x14000 (leafAt 0x200000 1 0)).putEntry 0 0x14008 (leafAt 0x205000 1 0)).putEntry 0 0x14010
    (leafAt 0x30000 0 0)).putEntry 0 0x14018 (leafAt 0x206000 2 1)

/-- 2 MiB of the window of partition 0 from 0x200000 on lie in one page of HBM4E. -/
def large (s : State) : State := (mapped s).putEntry 0 0x13008 (leafAt 0x400000 1 0)

/-- Bytes written to the window of partition 0. -/
def stored (s : State) (a : Nat) (bs : List Byte) : State := match s.writeGlobal 12 0 a (bs.map fun b => (b, false)) with
  | .ok t => t
  | .error _ => s

/-! The gang of one slice, its group, team and launch meet P. -/

def Solo (s : State) (P : Group → Slice → Team → Launch → Prop) : Prop :=
  ∃ g x t l, s.alone g x ∧ s.team? s.cur.team = some t ∧ s.launch? t.launch = some l ∧ P g x t l

def soloTest (s : State) (p : Group → Slice → Team → Launch → Bool) : Bool :=
  match s.members, s.team? s.cur.team with
  | [(g, x)], some t => match s.launch? t.launch with
    | some l => s.named && x.begins && p g x t l
    | none => false
  | _, _ => false

theorem solo {s : State} {P : Group → Slice → Team → Launch → Prop} [∀ g x t l, Decidable (P g x t l)]
    (h : soloTest s (fun g x t l => decide (P g x t l)) = true) : Solo s P := by
  unfold soloTest at h
  split at h
  · next g x t hm ht =>
    split at h
    · next l hl =>
      simp only [Bool.and_eq_true, decide_eq_true_eq] at h
      exact ⟨g, x, t, l, ⟨hm, h.1.1, h.1.2⟩, ht, hl, h.2⟩
    · simp at h
  · simp at h

/-! The gang is of one group; its first slice, team and launch meet P. -/

def OneGroup (s : State) (P : Group → Slice → Team → Launch → Prop) : Prop :=
  ∃ g x t l, s.inGroup g ∧ s.members.head? = some (g, x) ∧ s.team? s.cur.team = some t ∧ s.launch? t.launch = some l ∧ P g x t l

/-- Things of one list whose numbers differ are told apart by them. -/
theorem eq_of_num {α : Type} {f : α → Nat} {l : List α} (h : (l.map f).Nodup) {a b : α} (ha : a ∈ l) (hb : b ∈ l) (e : f a = f b) : a = b := by
  induction l with
  | nil => cases ha
  | cons c l ih =>
    simp only [List.map_cons, List.nodup_cons, List.mem_map, not_exists, not_and] at h
    cases ha with
    | head => cases hb with
      | head => rfl
      | tail _ hb => exact absurd e.symm (h.1 b hb)
    | tail _ ha => cases hb with
      | head => exact absurd e (h.1 a ha)
      | tail _ hb => exact ih h.2 ha hb

def groupTest (s : State) (p : Group → Slice → Team → Launch → Bool) : Bool :=
  match s.team? s.cur.team with
  | some t => match t.members s.cur.gang with
    | (g, x) :: ms => match s.launch? t.launch with
      | some l => ms.all (fun m => m.1.num == g.num) && s.named && p g x t l
      | none => false
    | [] => false
  | none => false

theorem oneGroup {s : State} {P : Group → Slice → Team → Launch → Prop} [∀ g x t l, Decidable (P g x t l)]
    (h : groupTest s (fun g x t l => decide (P g x t l)) = true) : OneGroup s P := by
  unfold groupTest at h
  split at h <;> try contradiction
  next t ht =>
  split at h <;> try contradiction
  next g x ms hm =>
  split at h <;> try contradiction
  next l hl =>
  simp only [Bool.and_eq_true, decide_eq_true_eq, beq_iff_eq, List.all_eq_true] at h
  have hs : s.members = (g, x) :: ms := by simp only [State.members, ht, hm]
  have here : ∀ m ∈ (g, x) :: ms, m.1 ∈ t.groups := by
    intro m hmem
    rw [← hm] at hmem
    simp only [Team.members, List.mem_flatMap, List.mem_map] at hmem
    obtain ⟨g, hg, x, -, rfl⟩ := hmem
    exact hg
  have nums : (t.groups.map (·.num)).Nodup := by
    have hn := h.1.2
    simp only [State.named, Bool.and_eq_true, List.all_eq_true, Team.named, decide_eq_true_eq] at hn
    exact (hn.2 t (List.mem_append_left _ (List.mem_of_find?_eq_some ht))).2.1
  refine ⟨g, x, t, l, ⟨?_, by simp [hs], ?_, h.1.2⟩, by simp [hs], ht, hl, h.2⟩
  · simp only [State.group?, ht, Option.bind_some, Team.group?]
    cases hf : t.groups.find? (·.num == g.num) with
    | none => exact absurd (List.find?_eq_none.mp hf g (here _ List.mem_cons_self)) (by simp)
    | some k =>
      have := List.find?_some hf
      simp only [beq_iff_eq] at this
      rw [eq_of_num nums (List.mem_of_find?_eq_some hf) (here (g, x) List.mem_cons_self) this]
  · intro m hmem
    rw [hs] at hmem
    obtain rfl | hmem' := List.mem_cons.mp hmem
    · rfl
    · exact eq_of_num nums (here m hmem) (here (g, x) List.mem_cons_self) (h.1.1 m hmem')

/-! The gang is of one slice; P holds of it when its turn comes, which is at once. -/

def turnTest (s : State) (p : Team → Group → Slice → Bool) : Bool :=
  match s.memberNums with
  | [m] => match s.team? s.cur.team, s.group? s.cur.team m.1, s.sliceAt s.cur.team m.1 m.2 with
    | some t, some g, some x => p t g x
    | _, _, _ => false
  | _ => false

theorem oneTurn {s : State} {P : State → Team → Group → Slice → Prop} [∀ s t g x, Decidable (P s t g x)]
    (h : turnTest s (fun t g x => decide (P s t g x)) = true) (f : State → Team → Group → Slice → State) : s.eachTurn f P := by
  intro ms m rest hm t g x ht hg hx
  unfold turnTest at h
  rw [hm] at h
  cases ms with
  | cons a ms => cases ms <;> simp at h
  | nil =>
    cases rest with
    | cons a rest => simp at h
    | nil =>
      simp only [List.nil_append, State.inTurn, List.foldl_nil] at h ht hg hx ⊢
      rw [ht, hg, hx] at h
      simpa using h

/-- The same of a gang of several slices, for one f. -/
def turnsTest (cur : Cur) (f : State → Team → Group → Slice → State) (p : State → Team → Group → Slice → Bool) : List (Nat × Nat) → State → Bool
  | [], _ => true
  | m :: ms, s => (match s.team? cur.team, s.group? cur.team m.1, s.sliceAt cur.team m.1 m.2 with
    | some t, some g, some x => p s t g x
    | _, _, _ => true) && turnsTest cur f p ms (match s.team? cur.team, s.group? cur.team m.1, s.sliceAt cur.team m.1 m.2 with
    | some t, some g, some x => f s t g x
    | _, _, _ => s)

theorem turns {s : State} {f : State → Team → Group → Slice → State} {P : State → Team → Group → Slice → Prop}
    [∀ s t g x, Decidable (P s t g x)] (h : turnsTest s.cur f (fun s t g x => decide (P s t g x)) s.memberNums s = true) : s.eachTurn f P := by
  intro ms m rest hm
  rw [hm] at h
  unfold State.inTurn
  generalize s.cur = c at h ⊢
  generalize hs : s = s1 at h ⊢
  clear hs hm s
  induction ms generalizing s1 with
  | nil =>
    intro t g x ht hg hx
    simp only [List.nil_append, turnsTest, List.foldl_nil] at h ht hg hx ⊢
    rw [ht, hg, hx] at h
    simp only [Bool.and_eq_true, decide_eq_true_eq] at h
    exact h.1
  | cons a ms ih =>
    simp only [List.cons_append, turnsTest, List.foldl_cons, Bool.and_eq_true] at h ⊢
    exact ih _ h.2

/-- An answer that is ok and meets P. -/
def Ok {ε α : Type} (e : Except ε α) (P : α → Prop) : Prop := ∃ a, e = .ok a ∧ P a

theorem okay {ε α : Type} {e : Except ε α} {P : α → Prop} [∀ a, Decidable (P a)] (h : e.toOption.any (fun a => decide (P a)) = true) :
    Ok e P := by
  cases e with
  | error _ => simp [Except.toOption] at h
  | ok a => exact ⟨a, rfl, by simpa [Except.toOption] using h⟩

/-- A value that is there and meets P. -/
def Is {α : Type} (o : Option α) (P : α → Prop) : Prop := ∃ a, o = some a ∧ P a

theorem is {α : Type} {o : Option α} {P : α → Prop} [∀ a, Decidable (P a)] (h : o.any (fun a => decide (P a)) = true) : Is o P := by
  cases o with
  | none => simp at h
  | some a => exact ⟨a, rfl, by simpa using h⟩

/-- An instruction answers a next state that meets P. -/
def Next (o : Out) (P : State → Prop) : Prop := ∃ t, o = .next t ∧ P t

theorem next {o : Out} {P : State → Prop} [∀ t, Decidable (P t)]
    (h : (match o with | .next t => decide (P t) | _ => false) = true) : Next o P := by
  cases o with
  | next t => exact ⟨t, rfl, by simpa using h⟩
  | fault _ => simp at h
  | refused _ => simp at h

/-- The access neither faults nor parks. -/
def lands (p : Found) : Bool := match p with
  | .place _ => true
  | _ => false

theorem lands_spec {p : Found} (h : lands p = true) : ∀ f, p ≠ .fault f ∧ ∀ w, p ≠ .park w := by
  cases p <;> simp_all [lands]

end Sys2Proof.Tests
end

