-- ==== Sys2Proof/Tests/Tile.lean ====
section
/-! SUPPORT. A pressed tile in memory, and witnesses of the hypotheses of the statements about the engines that read one. -/

set_option Elab.async false

namespace Sys2Proof.Tests

open Sys2Proof.Machine

/-! A pressed tile of 128 blocks, all in the zero-run bitmap mode with no element listed (R62 to R65). -/

/-- The checksum with its running value worked out byte by byte. -/
def crcSteps : List Byte → Nat → Nat
  | [], c => c
  | b :: bs, c => match crcByte c b with
    | 0 => crcSteps bs 0
    | n + 1 => crcSteps bs (n + 1)
theorem crcSteps_eq (bs : List Byte) : ∀ c, bs.foldl crcByte c = crcSteps bs c := by
  induction bs with
  | nil => intro c; rfl
  | cons b bs ih => 
    intro c
    simp only [List.foldl_cons, crcSteps, ih]
    split <;> simp_all

def tileHead : List Byte := toLE 2 0xA5C3 ++ [2, 0] ++ toLE 2 128 ++ toLE 2 64 ++ toLE 4 2048 ++ toLE 4 0 ++ List.replicate 64 0x33
def tileRecord : List Byte := tileHead ++ List.replicate 2048 0 ++ toLE 2 0xBDCC
def tiled (s : State) : State :=
  stored (stored (stored (large s) 0x200000 (toLE 4 1 ++ toLE 2 2130 ++ toLE 2 0xBDCC)) 0x200010 tileHead) (0x200010 + 2128) (toLE 2 0xBDCC)

theorem tile_decodes : (decodeRecord 0 2130 0xBDCC (List.replicate 128 0) tileRecord).isOk = true := by
  unfold decodeRecord crc16
  simp only [crcSteps_eq]
  decide +kernel

theorem ok_of {ε α : Type} {e : Except ε α} {a : α} (h : e.toOption = some a) : e = .ok a := by
  cases e <;> simp_all [Except.toOption]

/-- A tile whose index entry, header, scales and record can be read, and whose record decodes. -/
theorem tile_read {s : State} {t : Team} {g : Group} {region tile : Nat} {scales : DWord} {entry head sc rec : List Byte} {x : PressedTile}
    (he : (s.engineUse t.die.val t.partition.val (region + 8 * tile) 8).toOption = some entry)
    (hh : (s.engineUse t.die.val t.partition.val (region + 16 * leAt entry 0 4) 16).toOption = some head)
    (hs : s.scaleFault t scales (if 2 < leAt head 2 1 then 1 else 16384 / blockLen (leAt head 2 1) / 128) = none)
    (hsc : (s.scaleBytes t g scales (if 2 < leAt head 2 1 then 1 else 16384 / blockLen (leAt head 2 1) / 128)).toOption = some sc)
    (hl : ¬ (leAt entry 4 2 < 2130 ∨ 10514 < leAt entry 4 2))
    (hr : (s.engineUse t.die.val t.partition.val (region + 16 * leAt entry 0 4) (leAt entry 4 2)).toOption = some rec)
    (hd : decodeRecord tile (leAt entry 4 2) (leAt entry 6 2) sc rec = .ok x) : s.readTile t g region tile scales = .ok x := by
  simp [State.readTile, ok_of he, ok_of hh, hs, ok_of hsc, hl, ok_of hr, hd]

/-! Reading it. -/

theorem readCells_zero {l : List Host.Cell} {a : Nat} (h : ∀ c ∈ l, c.1 ≠ a) : readCells l a = 0 := by
  induction l with
  | nil => rfl
  | cons c l ih =>
    obtain ⟨b, x⟩ := c
    have hb : a ≠ b := fun e => h (b, x) List.mem_cons_self e.symm
    simp only [readCells, hb, if_false]
    exact ih fun c hc => h c (List.mem_cons_of_mem _ hc)

theorem tagOf_none {l : List (Nat × Key)} {g : Nat} (h : ∀ c ∈ l, c.1 ≠ g) : tagOf l g = none := by
  induction l with
  | nil => rfl
  | cons c l ih =>
    obtain ⟨b, x⟩ := c
    have hb : b ≠ g := h (b, x) List.mem_cons_self
    simp only [tagOf, hb, if_false]
    exact ih fun c hc => h c (List.mem_cons_of_mem _ hc)

/-- Bytes that nothing has written read 0. -/
theorem readMain_zero {s : State} {key : Option Key} {n : Nat} (hp : s.poison = []) : ∀ {a : Nat},
    (s.mem.cells.all fun c => decide (c.1 < a) || decide (a + n ≤ c.1)) = true →
    (s.tags.all fun c => decide (c.1 < a / 32) || decide (a + n ≤ 32 * c.1)) = true →
    s.readMain key a n = List.replicate n (0, false) := by
  induction n with
  | zero => intros; rfl
  | succ n ih =>
    intro a hc ht
    simp only [List.all_eq_true, Bool.or_eq_true, decide_eq_true_eq] at hc ht ih
    have h1 : s.byteAt key a = 0 := by
      have hm : s.mem.get a = 0 := readCells_zero fun c h => by have := hc c h; omega
      have hg : tagOf s.tags (a / 32) = none := tagOf_none fun c h => by have := ht c h; omega
      unfold State.byteAt
      rw [hg, hm]
      split <;> simp_all
    simp only [State.readMain, h1, hp, List.replicate_succ]
    rw [ih (a := a + 1) (fun c h => by have := hc c h; omega) (fun c h => by have := ht c h; omega)]
    rfl

theorem readMain_add {s : State} {key : Option Key} (m n : Nat) : ∀ a, s.readMain key a (m + n) = s.readMain key a m ++ s.readMain key (a + m) n := by
  induction m with
  | zero => intro a; simp [State.readMain]
  | succ m ih =>
    intro a
    rw [Nat.succ_add]
    simp only [State.readMain, ih, List.cons_append, Nat.add_assoc, Nat.add_comm 1]

theorem poisonStop_clean (va : Nat) (bs : List Byte) : poisonStop va (bs.map fun b => (b, false)) = none := by
  have : (bs.map fun b => (b, false)).findIdx? (·.2) = none := by simp [List.findIdx?_eq_none_iff]
  simp [poisonStop, this]

/-- A run whose bytes are not poisoned, read by an engine that uses them. -/
theorem engineUse_of {s : State} {d p va n : Nat} {tg : Target} {bs : List Byte} (hn : belowTop va n = n)
    (hr : s.runs d p .read (pageFuel va n) va n = ([(tg, n)], none))
    (hb : s.readMain tg.key (mainAddr tg.die tg.off) n = bs.map fun b => (b, false)) : s.engineUse d p va n = .ok bs := by
  have h : s.engineRead d p va n = .ok (bs.map fun b => (b, false)) := by
    simp [State.engineRead, State.readGlobal, hn, hr, State.readRuns, hb]
  simp [State.engineUse, h, poisonStop_clean, Function.comp_def]

def recordTest (s : State) (d p : Nat) : Bool :=
  match s.runs d p .read (pageFuel 0x200010 2130) 0x200010 2130 with
  | ([(tg, n)], none) =>
    let a := mainAddr tg.die tg.off
    decide (n = 2130) && s.readMain tg.key a 80 == tileHead.map (fun b => (b, false)) && s.poison.isEmpty &&
    (s.mem.cells.all fun c => decide (c.1 < a + 80) || decide (a + 80 + 2048 ≤ c.1)) &&
    (s.tags.all fun c => decide (c.1 < (a + 80) / 32) || decide (a + 80 + 2048 ≤ 32 * c.1)) &&
    s.readMain tg.key (a + 80 + 2048) 2 == (toLE 2 0xBDCC).map fun b => (b, false)
  | _ => false

theorem record_is {s : State} {d p : Nat} (h : recordTest s d p = true) : s.engineUse d p 0x200010 2130 = .ok tileRecord := by
  unfold recordTest at h
  split at h <;> try contradiction
  next tg n hr =>
  simp only [Bool.and_eq_true, decide_eq_true_eq, beq_iff_eq, List.isEmpty_iff] at h
  obtain ⟨⟨⟨⟨⟨rfl, hh⟩, hp⟩, hc⟩, ht⟩, he⟩ := h
  refine engineUse_of (by decide) hr ?_
  rw [show 2130 = 80 + (2048 + 2) from rfl, readMain_add, readMain_add, hh, readMain_zero hp hc ht, he]
  simp only [tileRecord, List.map_append, List.map_replicate, List.append_assoc]

def tileTest (s : State) (t : Team) (g : Group) : Bool :=
  (s.engineUse t.die.val t.partition.val 0x200000 8).toOption == some (toLE 4 1 ++ toLE 2 2130 ++ toLE 2 0xBDCC) &&
  (s.engineUse t.die.val t.partition.val 0x200010 16).toOption == some (tileHead.take 16) &&
  (s.scaleFault t (inShared 0) 1).isNone && (s.scaleBytes t g (inShared 0) 1).toOption == some (List.replicate 128 0) &&
  recordTest s t.die.val t.partition.val

theorem tile_is {s : State} {t : Team} {g : Group} (h : tileTest s t g = true) : ∃ x, s.readTile t g 0x200000 0 (inShared 0) = .ok x := by
  simp only [tileTest, Bool.and_eq_true, beq_iff_eq, Option.isNone_iff_eq_none] at h
  obtain ⟨⟨⟨⟨he, hh⟩, hs⟩, hc⟩, hr⟩ := h
  cases hd : decodeRecord 0 2130 0xBDCC (List.replicate 128 0) tileRecord with
  | error f => have := tile_decodes; rw [hd] at this; exact absurd this (by simp [Except.isOk, Except.toBool])
  | ok x =>
    have e1 : leAt (toLE 4 1 ++ toLE 2 2130 ++ toLE 2 0xBDCC) 0 4 = 1 := by decide
    have e2 : leAt (toLE 4 1 ++ toLE 2 2130 ++ toLE 2 0xBDCC) 4 2 = 2130 := by decide
    have e3 : leAt (toLE 4 1 ++ toLE 2 2130 ++ toLE 2 0xBDCC) 6 2 = 0xBDCC := by decide
    have e4 : (if 2 < leAt (tileHead.take 16) 2 1 then 1 else 16384 / blockLen (leAt (tileHead.take 16) 2 1) / 128) = 1 := by decide
    exact ⟨x, tile_read he (by rw [e1]; exact hh) (by rw [e4]; exact hs) (by rw [e4]; exact hc) (by rw [e2]; decide)
      (by rw [e1, e2, record_is hr]; rfl) (by rw [e2, e3]; exact hd)⟩

/-- An operation of a path that slice 0 has issued. -/
def copyOp (id : Nat) (p : Path) (job : Job) : Op := { sceneOp job (some p) with id := id }

/-- An engine's operation, of slice 0 of group 0. -/
def engineScene (job : Job) (p : Path) : State :=
  let s := single 0 0 id
  mapped (allotted ({ s with launches := [sceneLaunch 8 128 false] }.updGroup 1 0 fun g => { g with ops := [copyOp 3 p job], nextOp := 4 }))

def engineTest (s : State) (p : Team → Group → Op → Bool) : Bool :=
  match s.team? 1 with
  | some t => match t.group? 0 with
    | some g => match g.op? 3 with
      | some o => s.named && s.calm 1 && !t.frozen && !o.returned && o.parked.isNone && (g.slices.all fun x => x.hold == .none) && p t g o
      | none => false
    | none => false
  | none => false

/-- An expansion and a STREAM at the tile. -/
def tileScene : State :=
  let s := single 0 0 id
  let st : Stream := { addr := inShared 256, group := 0, op := 4, region := 0x200000, scales := inShared 0, first := 0, count := 2, stride := 0, claimed := 0,
                       ahead := [], delivered := 0, fault := none }
  let x : XpandJob := { t := .bf16, rm := 1, sat := false, ftz := false, dst := inShared 4096, src := 0x200000, tile := 0, scales := inShared 0 }
  (tiled { s with launches := [sceneLaunch 8 128 false] }).updTeam 1 fun t =>
    { t.updGroup 0 (fun g => { g with ops := [copyOp 3 .copyIn (.xpand x), copyOp 4 .stream (.stream (inShared 256))], nextOp := 5 }) with streams := [st] }

theorem is_of {α : Type} {o : Option α} {p : α → Bool} (h : o.any p = true) : Is o fun a => p a = true := by
  cases o with
  | none => contradiction
  | some a => exact ⟨a, rfl, h⟩

theorem tile_of {s : State} (h : ((s.team? 1).any fun t => (t.group? 0).any (tileTest s t)) = true) :
    Is (s.team? 1) fun t => Is (t.group? 0) fun g => ∃ x, s.readTile t g 0x200000 0 (inShared 0) = .ok x := by
  obtain ⟨t, ht, h⟩ := is_of h
  obtain ⟨g, hg, h⟩ := is_of h
  exact ⟨t, ht, g, hg, tile_is h⟩

theorem witness_CopiesReturn_tile :
    Is (tileScene.team? 1) fun t => Is (t.group? 0) fun g => ∃ x, tileScene.readTile t g 0x200000 0 (inShared 0) = .ok x :=
  tile_of (by decide +kernel)

theorem witness_CopiesReturn_expand : engineTest tileScene (fun t g o =>
    !tileScene.blocked t g o.prior { slice := 0, cls := 1, write := false, spans := tileScene.tileSpans t 0x200000 0 (inShared 0) }) = true := by
  decide +kernel

/-- The STREAM reads that tile; it has read all its tiles; its tile's page is not mapped. -/
theorem witness_VatsReturn_streams :
    (match tileScene.team? 1 with
     | some t => match t.group? 0 with
       | some g => match g.op? 4 with
         | some o => o.job == .stream (inShared 256) && (match t.streams.find? fun y => y.group == g.num && y.op == o.id with
             | some x => x.fault.isNone && decide (x.delivered + x.ahead.length < x.count)
             | none => false) &&
           !tileScene.blocked t g o.prior { slice := 0, cls := 4, write := false, spans := tileScene.tileSpans t 0x200000 0 (inShared 0) }
         | none => false
       | none => false
     | none => false) = true := by decide +kernel

end Sys2Proof.Tests
end

