-- ==== Sys2Proof/Tests/Image.lean ====
section
/-! SUPPORT. Images: their lengths, what writing one leaves alone, and one in memory whose digest is never looked at. -/

set_option Elab.async false

namespace Sys2Proof.Tests

open Sys2Proof.Machine

/-! Lengths of images. -/

theorem toLE_length : ∀ n x, (toLE n x).length = n
  | 0, _ => rfl
  | n + 1, x => by rw [toLE, List.length_cons, toLE_length n]

theorem fromLE_toLE : ∀ n x, x < 256 ^ n → fromLE (toLE n x) = x
  | 0, x, h => by simp at h; simp [toLE, fromLE, h]
  | n + 1, x, h => by
    have h1 : x / 256 < 256 ^ n := by rw [Nat.div_lt_iff_lt_mul (by decide)]; rw [Nat.pow_succ] at h; exact h
    rw [toLE, fromLE, fromLE_toLE n _ h1, BitVec.toNat_ofNat]
    omega

theorem scanBytes_length (k n : Nat) : (scanBytes k n).length = n := by simp [scanBytes]

theorem dirEntries_length : ∀ (l : List (Team × BitVec 4 × List Byte)) off, (dirEntries off l).length = 16 * l.length
  | [], _ => rfl
  | (t, e, b) :: r, off => by
    rw [dirEntries, List.length_append, dirEntries_length r, List.length_cons]
    simp only [dirEntry, List.length_append, toLE_length]
    omega

theorem sections_length (s : State) (ts : List (Team × BitVec 4)) : (s.sections ts).length = ts.length := by simp [State.sections]

theorem imageHeader_length (s : State) (d : Nat) (ts : List (Team × BitVec 4)) (c : SaveCounts) (body : List Byte) (h : ts.length ≤ 16) :
    (s.imageHeader d ts c body).length = 4096 := by
  simp only [State.imageHeader, List.length_append, toLE_length, dirEntries_length, sections_length, List.length_replicate]
  omega

theorem sum_const {α : Type} (c : Nat) : ∀ l : List α, (l.map fun _ => c).sum = l.length * c
  | [] => by simp
  | _ :: l => by rw [List.map_cons, List.sum_cons, sum_const c l, List.length_cons, Nat.add_one_mul, Nat.add_comm]

theorem rowBytes_length (t : Team) : t.rowBytes.length = ((t.groups.map fun g => (g.place.sub, g.place.base)).eraseDups.map fun k =>
    ((t.groups.filter fun g => (g.place.sub, g.place.base) == k).map (·.budget)).headD 0 * 128).sum := by
  simp [Team.rowBytes, List.length_flatMap, toLE_length, sum_const]

/-- The length of an image of one team. -/
theorem imageBody_length (s : State) (t : Team) (e : BitVec 4) (n : Nat) (h : 4096 + t.rowBytes.length + s.bound t .shared = 4096 * n) :
    (s.imageBody [(t, e)]).length = 4096 * n + 16384 := by
  have h1 : (s.section s.free t).length = 4096 * n := by
    simp only [State.section, padPage, List.length_append, scanBytes_length, Memory.read_length, h, List.length_replicate]
    omega
  simp [State.imageBody, State.sections, scanBytes_length, h1]

/-! What writing leaves alone. -/

theorem rekeys_parts (k : Key) : ∀ (gs : List Nat) (s : State), ∃ m tg, gs.foldl (fun (t : State) g => t.rekey k g) s = { s with mem := m, tags := tg }
  | [], s => ⟨_, _, rfl⟩
  | g :: r, s => by
    have h1 : ∃ m tg, s.rekey k g = { s with mem := m, tags := tg } := by
      unfold State.rekey
      split
      · split
        · exact ⟨_, _, rfl⟩
        · exact ⟨_, _, rfl⟩
      · exact ⟨_, _, rfl⟩
    obtain ⟨m, tg, h1⟩ := h1
    obtain ⟨m', tg', h2⟩ := rekeys_parts k r (s.rekey k g)
    exact ⟨m', tg', by rw [List.foldl_cons, h2, h1]⟩

theorem writeMain_parts (s : State) (k : Option Key) (a : Nat) (bs : List (Byte × Bool)) :
    ∃ m tg po, s.writeMain k a bs = { s with mem := m, tags := tg, poison := po } := by
  unfold State.writeMain
  cases k with
  | none => exact ⟨_, _, _, rfl⟩
  | some k =>
    obtain ⟨m, tg, h⟩ := rekeys_parts k (granules a bs.length) s
    simp only [h]
    exact ⟨_, _, _, rfl⟩

theorem writeRuns_parts : ∀ (ts : List (Target × Nat)) (s : State) (bs : List (Byte × Bool)),
    ∃ m tg po, s.writeRuns ts bs = { s with mem := m, tags := tg, poison := po }
  | [], s, bs => ⟨_, _, _, rfl⟩
  | (t, n) :: r, s, bs => by
    obtain ⟨m, tg, po, h⟩ := writeMain_parts s t.key (mainAddr t.die t.off) (bs.take n)
    obtain ⟨m', tg', po', h'⟩ := writeRuns_parts r (s.writeMain t.key (mainAddr t.die t.off) (bs.take n)) (bs.drop n)
    exact ⟨m', tg', po', by rw [State.writeRuns, h', h]⟩

/-- An image whose write meets no fault is written, and nothing but memory, its image and the free count change. -/
theorem writeImage_goes {s : State} {d : Nat} {p : Fin 16} {addr : DWord} {slot : Option Nat} {ts : List (Team × BitVec 4)} {subs : List SubCore}
    {c : SaveCounts} {n : Nat} (hl : (s.imageBody ts).length = n) (ht : ts.length ≤ 16) (hb : addr.toNat + 4096 + n ≤ 2 ^ 57)
    (hr : (s.runs d p.val .write (pageFuel addr.toNat (4096 + n)) addr.toNat (4096 + n)).2 = none) :
    ∃ m tg po, s.writeImage d p addr slot ts subs c = some { s with
      mem := m, tags := tg, poison := po, free := s.free + ts.length + 1
      images := s.images ++ [{ partition := p, addr := addr, slot := slot, digest := sha3 (s.imageBody ts), generation := Config.generation d,
                               revision := (s.die d).revision, counter := c.counter, teams := ts, subs := subs, live := true }] } := by
  have h1 : (clean (s.imageHeader d ts c (s.imageBody ts) ++ s.imageBody ts)).length = 4096 + n := by
    simp [clean, imageHeader_length _ _ _ _ _ ht, hl]
  obtain ⟨m, tg, po, hw⟩ := writeRuns_parts (s.runs d p.val .write (pageFuel addr.toNat (4096 + n)) addr.toNat (4096 + n)).1 s
    (clean (s.imageHeader d ts c (s.imageBody ts) ++ s.imageBody ts))
  have h2 : s.writeGlobal d p.val addr.toNat (clean (s.imageHeader d ts c (s.imageBody ts) ++ s.imageBody ts)) =
      .ok { s with mem := m, tags := tg, poison := po } := by
    rw [State.writeGlobal, h1]
    generalize hx : s.runs d p.val .write (pageFuel addr.toNat (4096 + n)) addr.toNat (4096 + n) = x at *
    obtain ⟨x1, x2⟩ := x
    simp only at hr hw ⊢
    subst hr
    simp only [hw]
  unfold State.writeImage
  simp only [hl, h2, if_neg (Nat.not_lt.2 hb)]
  exact ⟨m, tg, po, rfl⟩

/-! An image without a body, with whatever digest its body has. -/

/-- Cells that list bytes from an address on. -/
def cellsFrom : Nat → List Byte → List Host.Cell
  | _, [] => []
  | a, b :: r => (a, b) :: cellsFrom (a + 1) r

theorem readMain_listed {s : State} {k : Option Key} (hp : s.poison = []) : ∀ (bs : List Byte) (a : Nat) (l : List Host.Cell),
    s.mem.cells = l ++ cellsFrom a bs → (∀ c ∈ l, c.1 < a ∨ a + bs.length ≤ c.1) →
    (∀ c ∈ s.tags, 32 * c.1 + 32 ≤ a ∨ a + bs.length ≤ 32 * c.1) → s.readMain k a bs.length = bs.map fun b => (b, false)
  | [], _, _, _, _, _ => rfl
  | b :: r, a, l, hm, hl, ht => by
    have h0 : ∀ (l : List Host.Cell) (c : List Host.Cell), (∀ x ∈ l, x.1 ≠ a) → readCells (l ++ (a, b) :: c) a = b := by
      intro l
      induction l with
      | nil => intro c _; simp [readCells]
      | cons y l ih =>
        intro c h
        have h1 : ¬ a = y.1 := fun e => h y (by simp) e.symm
        rw [List.cons_append, readCells, if_neg h1, ih c fun x hx => h x (by simp [hx])]
    rw [List.length_cons] at hl ht
    have h1 : readCells s.mem.cells a = b := by
      rw [hm, cellsFrom]
      exact h0 _ _ fun c h e => by have := hl c h; omega
    have h2 : tagOf s.tags (a / 32) = none := tagOf_none fun c h e => by have := ht c h; omega
    have h3 : s.byteAt k a = b := by
      unfold State.byteAt
      rw [h2]
      cases k <;> exact h1
    have h4 := readMain_listed (k := k) hp r (a + 1) (l ++ [(a, b)]) (by simp [hm, cellsFrom])
      (fun c h => by
        rcases List.mem_append.1 h with h | h
        · have := hl c h; omega
        · simp at h; subst h; left; simp)
      (fun c h => by have := ht c h; omega)
    rw [List.length_cons, State.readMain, h3, hp, h4]
    rfl

/-- The header of an image of one team of partition 0, without a body. -/
def imageHead (x : BitVec 256) : List Byte :=
  toLE 4 0x474D495A ++ toLE 2 1 ++ [6, 0] ++ toLE 4 4096 ++ toLE 2 1 ++ List.replicate 34 0 ++ toLE 32 x.toNat

/-- An image without a body at 0x200000: the team of whole, saved in an epoch. -/
def bareImage (slot : Option Nat) (epoch : BitVec 4) : Image :=
  { partition := 0, addr := 0x200000, slot := slot, digest := sha3 [], generation := 6, revision := 0, counter := 0,
    teams := (large (whole id)).teams.map fun t => (t, epoch), subs := [], live := true }

/-- A state with 80 bytes at 0x200000 of the window, and that image. -/
def imaged (head : List Byte) (slot : Option Nat) (epoch : BitVec 4) : State :=
  let s := large (whole id)
  { s with mem := { cells := s.mem.cells ++ cellsFrom (mainAddr 8 0x400000) head }
           teams := [], images := [bareImage slot epoch] }

theorem finds {s : State} {i : Image} (h : s.images = [i]) (hs : i.slot = none) (hd : i.digest = sha3 []) :
    s.images.find? (fun i => i.slot.isNone && i.digest == sha3 []) = some i := by
  simp [h, hs, hd]

def imageAt : Target := { va := 0x200000, die := 8, off := 0x400000, key := some 2, left := 0x200000, leaf := 0x0005000000400047, bits := 21 }

theorem allZero_zeros (n : Nat) : allZero (List.replicate n 0) = true := by simp [allZero]

theorem image_fits (s : State) (h : (s.die 0).revision = 0) : s.imageFits 0 (imageHead (sha3 []) ++ List.replicate 4016 0) [] = true := by
  have hx : leAt (imageHead (sha3 []) ++ List.replicate 4016 0) 0x30 32 = (sha3 []).toNat := by
    have h1 : imageHead (sha3 []) = (toLE 4 0x474D495A ++ toLE 2 1 ++ [6, 0] ++ toLE 4 4096 ++ toLE 2 1 ++ List.replicate 34 0) ++ toLE 32 (sha3 []).toNat := rfl
    rw [h1, leAt, List.append_assoc, List.drop_left' (by decide), List.take_left' (toLE_length 32 _), fromLE_toLE]
    have := (sha3 []).isLt
    omega
  have h1 : leAt (imageHead (sha3 []) ++ List.replicate 4016 0) 0 4 = 0x474D495A ∧ leAt (imageHead (sha3 []) ++ List.replicate 4016 0) 4 2 = 1 ∧
      leAt (imageHead (sha3 []) ++ List.replicate 4016 0) 6 1 = 6 ∧ leAt (imageHead (sha3 []) ++ List.replicate 4016 0) 7 1 = 0 ∧
      leAt (imageHead (sha3 []) ++ List.replicate 4016 0) 8 4 = 4096 ∧ leAt (imageHead (sha3 []) ++ List.replicate 4016 0) 0xF 1 = 0 := by decide +kernel
  have h2 : allZero (((imageHead (sha3 []) ++ List.replicate 4016 0).drop 0x28).take 8) = true := by decide +kernel
  have h3 : allZero ((imageHead (sha3 []) ++ List.replicate 4016 0).drop 0x150) = true := by
    have e : (imageHead (sha3 []) ++ List.replicate 4016 0).drop 0x150 = List.replicate 3760 0 := by
      have hl : (imageHead (sha3 [])).length = 80 := by simp [imageHead, toLE_length]
      rw [List.drop_append, hl, List.drop_of_length_le (by rw [hl]; decide), List.drop_replicate]
      rfl
    rw [e, allZero_zeros]
  have h4 : ((List.range 16).all fun i => leAt (imageHead (sha3 []) ++ List.replicate 4016 0) (0x50 + 16 * i + 0xF) 1 == 0 &&
      decide (leAt (imageHead (sha3 []) ++ List.replicate 4016 0) (0x50 + 16 * i + 0xD) 1 < 16)) = true := by decide +kernel
  obtain ⟨ha, hb, hc, hd, he, hf⟩ := h1
  unfold State.imageFits
  rw [ha, hb, hc, hd, he, hf, h2, h3, h4, hx, h]
  simp [Config.generation]

theorem directory_first : directory (imageHead (sha3 []) ++ List.replicate 4016 0) 0 = some (0, 0) := by decide +kernel

/-- The directory carries the image's team. -/
theorem directory_of (n : Nat) (y : Team × BitVec 4) (hy : (bareImage none 0).teams[n]? = some y) :
    directory (imageHead (sha3 []) ++ List.replicate 4016 0) n = some (y.1.partition.val, y.2) := by
  have h3 : ((bareImage none 0).teams.map fun y => (y.1.partition.val, y.2)) = [(0, 0)] := by decide +kernel
  have hy2 := congrArg (Option.map fun y : Team × BitVec 4 => (y.1.partition.val, y.2)) hy
  rw [← List.getElem?_map, h3, Option.map_some] at hy2
  cases n with
  | zero => rw [directory_first, ← hy2]; rfl
  | succ n => simp at hy2

theorem narrower {x a m n : Nat} (h : m ≤ n) : x < a ∨ a + n ≤ x → x < a ∨ a + m ≤ x := by omega
theorem narrower' {x y a m n : Nat} (h : m ≤ n) : y ≤ a ∨ a + n ≤ x → y ≤ a ∨ a + m ≤ x := by omega

theorem read_nothing (s : State) (d p a : Nat) : s.readGlobal d p .read a 0 = .ok [] := by
  simp [State.readGlobal, pageFuel, State.runs, State.readRuns]

theorem peek_nothing (s : State) (d p a : Nat) : s.peek d p a 0 = some [] := by simp [State.peek, read_nothing]

theorem peek_of {s : State} {d p a n : Nat} {h : List Byte} (h1 : s.readGlobal d p .read a n = .ok (h.map fun b => (b, false))) :
    s.peek d p a n = some h := by simp [State.peek, h1, Function.comp_def]

theorem readImage_of {s : State} {d : Nat} {p : Fin 16} {addr : DWord} {h : List Byte}
    (h1 : s.readGlobal d p.val .read addr.toNat 4096 = .ok (h.map fun b => (b, false))) (h2 : leAt h 8 4 - 4096 = 0) :
    s.readImage d p addr = some (h, []) := by
  rw [State.readImage, peek_of h1, Option.bind_some, h2, peek_nothing, Option.map_some]

/-- An image without a body whose header begins with given bytes can be read in a state that has room for it. -/
theorem image_read {s : State} {l : List Host.Cell} {b : List Byte} (hn : b.length = 80) (hm : s.mem.cells = l ++ cellsFrom (mainAddr 8 0x400000) b)
    (hl : ∀ c ∈ l, c.1 < mainAddr 8 0x400000 ∨ mainAddr 8 0x400000 + 4096 ≤ c.1)
    (ht : ∀ c ∈ s.tags, 32 * c.1 + 32 ≤ mainAddr 8 0x400000 ∨ mainAddr 8 0x400000 + 4096 ≤ 32 * c.1) (hp : s.poison = [])
    (hr : s.runs 0 0 .read (pageFuel 0x200000 4096) 0x200000 4096 = ([(imageAt, 4096)], none))
    (h4 : leAt (b ++ List.replicate 4016 0) 8 4 - 4096 = 0) :
    s.readImage 0 0 0x200000 = some (b ++ List.replicate 4016 0, []) := by
  have h1 : s.readMain (some 2) (mainAddr 8 0x400000) 80 = b.map fun b => (b, false) := by
    have := readMain_listed (s := s) (k := some 2) hp b (mainAddr 8 0x400000) l hm
      (fun c h => by rw [hn]; exact narrower (by decide) (hl c h)) (fun c h => by rw [hn]; exact narrower' (by decide) (ht c h))
    rwa [hn] at this
  have hc : ∀ (bs : List Byte) (a : Nat) (c : Host.Cell), c ∈ cellsFrom a bs → c.1 < a + bs.length := by
    intro bs
    induction bs with
    | nil => intro a c h; simp [cellsFrom] at h
    | cons b r ih =>
      intro a c h
      rw [cellsFrom, List.mem_cons] at h
      rw [List.length_cons]
      rcases h with h | h
      · subst h; show a < _; omega
      · have := ih (a + 1) c h; omega
  have h2 : s.readMain (some 2) (mainAddr 8 0x400000 + 80) 4016 = List.replicate 4016 (0, false) := by
    refine readMain_zero hp (List.all_eq_true.2 fun c h => ?_) (List.all_eq_true.2 fun c h => ?_)
    · rw [hm] at h
      simp only [Bool.or_eq_true, decide_eq_true_eq]
      rcases List.mem_append.1 h with h | h
      · have := hl c h; omega
      · have := hc _ _ c h; rw [hn] at this; omega
    · simp only [Bool.or_eq_true, decide_eq_true_eq]
      have := ht c h; omega
  have h3 : s.readGlobal 0 0 .read 0x200000 4096 = .ok ((b ++ List.replicate 4016 0).map fun b => (b, false)) := by
    rw [State.readGlobal, hr, List.map_append, List.map_replicate, ← h1, ← h2, ← readMain_add]
    show Except.ok (s.readMain (some 2) (mainAddr 8 0x400000) 4096 ++ []) = _
    rw [List.append_nil]
  exact readImage_of h3 h4

theorem imageHead_length (x : BitVec 256) : (imageHead x).length = 80 := by simp [imageHead, toLE_length]

end Sys2Proof.Tests
end

