-- ==== Sys2Proof/Tests/Slice0.lean ====
section
/-! SUPPORT. Tests of the model: ill-formed terms that WellFormed refuses, and values that the spec's chapters work out. -/

set_option Elab.async false

namespace Sys2Proof.Tests

open Sys2Proof.Machine

/-! Terms that no legal encoding stands for. -/

/-- The guard (p7), which every lane passes. -/
def p7 : Guard := ⟨7, false⟩

/-- The guard (!p7), which is not legal (R145). -/
def bad : Guard := ⟨7, true⟩

def refusedAll (l : List Instr) : Bool := l.all fun i => !i.wellFormed

/-- R145: the guard of every shape of lane instruction. -/
theorem test_illformed_guards : refusedAll [
    .addI32 ⟨bad, 1, 2, 3⟩, .addI32Imm ⟨bad, 1, 2, 3⟩, .shlImm ⟨bad, 1, 2, 3⟩, .popc ⟨bad, 1, 2⟩, .movImm ⟨bad, 1, 2⟩,
    .seteqI32 ⟨bad, 1, 2, 3⟩, .seteqI32Imm ⟨bad, 1, 2, 3⟩, .pmov ⟨bad, 1, 2⟩, .pand ⟨bad, 1, 2, 3⟩, .ptoi ⟨bad, 1, 2⟩,
    .lid ⟨bad, 1, .lane⟩, .addTyped ⟨bad, .f32, .mode, false, 1, 2, 3⟩, .mad ⟨bad, .f32, .mode, false, 1, 2, 3, 4⟩,
    .minTyped ⟨bad, .f32, 1, 2, 3⟩, .shlTyped ⟨bad, .i32, 1, 2, 3⟩, .setcc ⟨bad, .f32, .eq, 1, 2, 3⟩, .negTyped ⟨bad, .f32, false, 1, 2⟩,
    .div ⟨bad, .f32, .mode, false, 1, 2, 3⟩, .sqrt ⟨bad, .f32, .mode, false, 1, 2⟩, .rndi ⟨bad, .f32, .mode, 1, 2⟩,
    .fclass ⟨bad, .f32, 1, 2⟩, .sin ⟨bad, .f32, 1, 2⟩, .cvt ⟨bad, .f32, .f16, .mode, false, 1, 2⟩, .dp4 ⟨bad, .i8, false, 1, 2, 3, 4⟩,
    .shfl ⟨bad, 1, 2, 3⟩, .swap ⟨bad, 1, 2, 3⟩, .prmt ⟨bad, 1, 2, 3, 4⟩, .ld ⟨bad, .i32, .relaxed, .grp, 1, 2⟩,
    .st ⟨bad, .i32, .relaxed, .grp, 2, 1⟩, .atom ⟨bad, .add, .i32, .mode, .relaxed, .grp, 1, 2, 3⟩,
    .cas ⟨bad, .i32, .relaxed, .grp, 1, 2, 3, 4⟩, .deposit ⟨bad, 1, 2⟩, .mma ⟨bad, false, 2, 4, 4, 2, 0⟩,
    .mmas ⟨bad, false, 2, 4, 4, 2, 0⟩, .mmv ⟨bad, false, 2, 4, 4, 2, 0⟩] = true := by
  decide +kernel

/-- R146: p7 as a predicate destination. R151: shift counts with reserved bits, displacements that are no multiple of 4. R233:
MSPLIT (!p7). R156: a FENCE without order or class. -/
theorem test_illformed_fields : refusedAll [
    .seteqI32 ⟨p7, 7, 2, 3⟩, .seteqI32Imm ⟨p7, 7, 2, 3⟩, .pmov ⟨p7, 7, 2⟩, .pand ⟨p7, 7, 2, 3⟩, .setcc ⟨p7, .f32, .eq, 7, 2, 3⟩,
    .shlImm ⟨p7, 1, 2, 32⟩, .shrN32Imm ⟨p7, 1, 2, 32⟩, .shrI32Imm ⟨p7, 1, 2, 32⟩, .rolImm ⟨p7, 1, 2, 32⟩, .sshlImm ⟨1, 2, 32⟩,
    .sshrN32Imm ⟨1, 2, 32⟩, .sshrI32Imm ⟨1, 2, 32⟩, .sshlN64Imm ⟨2, 4, 64⟩, .sshrN64Imm ⟨2, 4, 64⟩, .bra ⟨.always, 2⟩, .call ⟨1, 0, 2⟩,
    .msplit ⟨1, 7, true⟩, .fence ⟨.relaxed, .grp, 1⟩, .fence ⟨.acq, .grp, 0⟩] = true := by
  decide +kernel

/-- R144: an odd register where a pair stands, in every operand; ranges that leave the register file; a format block that is no
multiple of 4. -/
theorem test_illformed_registers : refusedAll [
    .addTyped ⟨p7, .f64, .mode, false, 1, 2, 4⟩, .addTyped ⟨p7, .f64, .mode, false, 2, 1, 4⟩, .addTyped ⟨p7, .i64, .mode, false, 2, 4, 1⟩,
    .mad ⟨p7, .f64, .mode, false, 2, 4, 6, 1⟩, .minTyped ⟨p7, .n64, 1, 2, 4⟩, .shlTyped ⟨p7, .n64, 2, 1, 3⟩,
    .setcc ⟨p7, .f64, .eq, 1, 3, 2⟩, .negTyped ⟨p7, .i64, false, 1, 2⟩, .sqrt ⟨p7, .f64, .mode, false, 2, 1⟩,
    .rndi ⟨p7, .f64, .mode, 1, 2⟩, .fclass ⟨p7, .f64, 1, 1⟩, .cvt ⟨p7, .f64, .f32, .mode, false, 1, 2⟩,
    .cvt ⟨p7, .f32, .f64, .mode, false, 1, 3⟩, .ld ⟨p7, .i32, .relaxed, .grp, 1, 3⟩, .ld ⟨p7, .i64, .relaxed, .grp, 1, 2⟩,
    .st ⟨p7, .i32, .relaxed, .grp, 1, 3⟩, .st ⟨p7, .f64, .relaxed, .grp, 2, 3⟩, .atom ⟨p7, .add, .i32, .mode, .relaxed, .grp, 1, 3, 2⟩,
    .atom ⟨p7, .add, .i64, .mode, .relaxed, .grp, 1, 2, 2⟩, .atom ⟨p7, .add, .i64, .mode, .relaxed, .grp, 2, 2, 1⟩,
    .cas ⟨p7, .n64, .relaxed, .grp, 2, 2, 2, 1⟩, .deposit ⟨p7, 1, 61⟩, .mma ⟨p7, false, 1, 4, 4, 2, 0⟩, .mma ⟨p7, false, 2, 49, 4, 2, 0⟩,
    .mma ⟨p7, false, 2, 4, 6, 2, 0⟩, .mma ⟨p7, false, 2, 4, 4, 3, 0⟩, .mmas ⟨p7, false, 2, 53, 4, 2, 0⟩, .mmv ⟨p7, false, 2, 4, 6, 2, 0⟩,
    .mmv ⟨p7, false, 2, 4, 4, 3, 0⟩] = true := by
  decide +kernel

theorem test_illformed_scalar_registers : refusedAll [
    .smovI64 ⟨1, 2⟩, .smovI64 ⟨2, 1⟩, .smovI64Imm ⟨1, 0⟩, .saddI64 ⟨1, 2, 4⟩, .saddI64 ⟨2, 1, 4⟩, .saddI64 ⟨2, 4, 1⟩, .ssubI64Imm ⟨1, 2, 0⟩,
    .smulI64Imm ⟨2, 1, 0⟩, .sshlN64 ⟨1, 2, 3⟩, .sshrN64 ⟨2, 1, 3⟩, .sshlN64Imm ⟨1, 2, 3⟩, .scmpI64 ⟨.eq, 1, 3, 2⟩, .scmpI64 ⟨.eq, 1, 2, 3⟩,
    .patchreq 1, .tclk 1, .sysrd ⟨1, 2⟩, .syswr ⟨1, 3⟩, .sld ⟨.i32, .relaxed, .grp, 1, 3⟩, .sld ⟨.i64, .relaxed, .grp, 1, 2⟩,
    .sst ⟨.i32, .relaxed, .grp, 3, 1⟩, .satom ⟨.add, .i32, .mode, .relaxed, .grp, 1, 3, 2⟩, .scas ⟨.i64, .relaxed, .grp, 2, 2, 2, 1⟩,
    .waitv ⟨.i32, .relaxed, .grp, .eq, 1, 3, 2⟩, .waitvm ⟨.i64, .relaxed, .grp, .eq, 2, 2, 2, 1⟩, .cpin ⟨1, 2, 3⟩, .cpout ⟨2, 1, 3⟩,
    .gather ⟨1, 2, 4, 6⟩, .gather ⟨2, 4, 6, 62⟩, .xpand ⟨.f32, .mode, false, 1, 2, 3, 4⟩, .xpand ⟨.f32, .mode, false, 2, 4, 3, 5⟩,
    .rcopy ⟨.relaxed, .grp, 1, 2, 3, 4⟩, .put ⟨.relaxed, .grp, 2, 4, 3, 5⟩, .stream 1, .relaunch 1] = true := by
  decide +kernel

/-- R154, R156: types, roundings, conditions, orders and scopes that an opcode does not accept. -/
theorem test_illformed_types : refusedAll [
    .addTyped ⟨p7, .e4m3, .mode, false, 1, 2, 3⟩, .addTyped ⟨p7, .i32, .rn, false, 1, 2, 3⟩, .mad ⟨p7, .i8, .mode, false, 1, 2, 3, 4⟩,
    .mad ⟨p7, .n32, .rz, false, 1, 2, 3, 4⟩, .minTyped ⟨p7, .e5m2, 1, 2, 3⟩, .shlTyped ⟨p7, .f32, 1, 2, 3⟩, .setcc ⟨p7, .q4, .eq, 1, 2, 3⟩,
    .setcc ⟨p7, .i32, .un, 1, 2, 3⟩, .negTyped ⟨p7, .n32, false, 1, 2⟩, .absTyped ⟨p7, .n8, false, 1, 2⟩,
    .div ⟨p7, .i32, .mode, false, 1, 2, 3⟩, .sqrt ⟨p7, .n32, .mode, false, 1, 2⟩, .rndi ⟨p7, .i32, .mode, 1, 2⟩, .fclass ⟨p7, .i32, 1, 2⟩,
    .sin ⟨p7, .f64, 2, 4⟩, .log2 ⟨p7, .bf16, 2, 4⟩, .cvt ⟨p7, .f32, .f32, .mode, false, 1, 2⟩, .cvt ⟨p7, .mx4, .f32, .mode, false, 1, 2⟩,
    .cvt ⟨p7, .f32, .q4, .mode, false, 1, 2⟩, .cvt ⟨p7, .i32, .i8, .rn, false, 1, 2⟩, .dp4 ⟨p7, .i32, false, 1, 2, 3, 4⟩] = true := by
  decide +kernel

theorem test_illformed_orders : refusedAll [
    .ld ⟨p7, .q4, .relaxed, .grp, 1, 2⟩, .ld ⟨p7, .i32, .rel, .grp, 1, 2⟩, .ld ⟨p7, .i32, .acq, .pkg, 1, 2⟩, .ld ⟨p7, .i32, .relaxed, .die, 1, 2⟩,
    .st ⟨p7, .mx4, .relaxed, .grp, 2, 1⟩, .st ⟨p7, .i32, .acq, .grp, 2, 1⟩, .st ⟨p7, .i32, .rel, .pkg, 2, 1⟩,
    .atom ⟨p7, .add, .f16, .mode, .relaxed, .grp, 1, 2, 3⟩, .atom ⟨p7, .min, .f32, .mode, .relaxed, .grp, 1, 2, 3⟩,
    .atom ⟨p7, .add, .i32, .rn, .relaxed, .grp, 1, 2, 3⟩, .atom ⟨p7, .add, .i32, .mode, .relaxed, .pkg, 1, 2, 3⟩,
    .cas ⟨p7, .f32, .relaxed, .grp, 1, 2, 3, 4⟩, .cas ⟨p7, .i32, .relaxed, .pkg, 1, 2, 3, 4⟩, .sld ⟨.q4, .relaxed, .grp, 1, 2⟩,
    .sld ⟨.i32, .ar, .grp, 1, 2⟩, .sld ⟨.i32, .acq, .fab, 1, 2⟩, .sst ⟨.mx4, .relaxed, .grp, 2, 1⟩, .sst ⟨.i32, .acq, .grp, 2, 1⟩,
    .sst ⟨.i32, .rel, .fab, 2, 1⟩, .satom ⟨.add, .i8, .mode, .relaxed, .grp, 1, 2, 3⟩, .satom ⟨.xor, .f32, .mode, .relaxed, .grp, 1, 2, 3⟩,
    .satom ⟨.add, .n32, .rz, .relaxed, .grp, 1, 2, 3⟩, .satom ⟨.add, .n32, .mode, .relaxed, .fab, 1, 2, 3⟩,
    .scas ⟨.f32, .relaxed, .grp, 1, 2, 3, 4⟩, .scas ⟨.i32, .relaxed, .fab, 1, 2, 3, 4⟩, .waitv ⟨.f32, .relaxed, .grp, .eq, 1, 2, 3⟩,
    .waitv ⟨.i32, .rel, .grp, .eq, 1, 2, 3⟩, .waitv ⟨.i32, .acq, .fab, .eq, 1, 2, 3⟩, .waitvm ⟨.i8, .relaxed, .grp, .eq, 1, 2, 3, 4⟩,
    .waitvm ⟨.i32, .ar, .grp, .eq, 1, 2, 3, 4⟩, .waitvm ⟨.i32, .relaxed, .pkg, .eq, 1, 2, 3, 4⟩, .xpand ⟨.e4m3, .mode, false, 2, 4, 3, 6⟩,
    .rcopy ⟨.acq, .grp, 2, 4, 3, 6⟩, .rcopy ⟨.rel, .fab, 2, 4, 3, 6⟩, .put ⟨.ar, .grp, 2, 4, 3, 6⟩, .put ⟨.rel, .pkg, 2, 4, 3, 6⟩] = true := by
  decide +kernel

/-! Values that the chapters work out. -/

/-- R54, R199, R200: the corners of integer arithmetic and of shifts. -/
theorem test_integer_corners : mulhiS 0x80000000 2 = 0xFFFFFFFF ∧ mulhiU 0x80000000 2 = 1 ∧ absW 0x80000000 = 0x80000000 ∧
    shlW 1 32 = 0 ∧ shrW 0x80000000 40 = 0 ∧ sarW 0x80000000 40 = 0xFFFFFFFF ∧ rolW 0x80000001 33 = 3 ∧ clzW 0 = 32 ∧
    brevW 0x80000000 = 1 := by decide +kernel

/-- R43, R195: 100 × 3 in .I8 wraps to 44 and saturates to 127; neither raises anything. -/
theorem test_integer_saturation : arith .mul .i8 .mode false 1 100 3 = (44, 0) ∧ arith .mul .i8 .mode true 1 100 3 = (127, 0) ∧
    arith .sub .n8 .mode true 1 3 5 = (0, 0) := by decide +kernel

/-- R208: the worked MAD.F32 rounds once: (1 + 2^-23)(1 - 2^-23) - 1 is -2^-46, with no flag. -/
theorem test_mad_rounds_once : madOp .f32 .rn false 1 0x3F800001 0x3F7FFFFE 0xBF800000 = (0xA8800000, 0) := by decide +kernel

/-- R49, R211: the worked conversions of a tie to .BF16 in the five roundings; each sets FX (bit 4). -/
theorem test_cvt_roundings :
    ([Rnd.rn, .rz, .ru, .rd, .ra].map fun r => cvtOp .bf16 .f32 r false 1 0x3F808000) =
      [(0x3F80, 16), (0x3F80, 16), (0x3F81, 16), (0x3F80, 16), (0x3F81, 16)] ∧
    ([Rnd.rn, .rz, .ru, .rd, .ra].map fun r => cvtOp .bf16 .f32 r false 1 0xBF808000) =
      [(0xBF80, 16), (0xBF80, 16), (0xBF80, 16), (0xBF81, 16), (0xBF81, 16)] := by decide +kernel

/-- R46, R211: 1.0, 500.0 and 200.7 as the chapter of the lane instructions converts them (FO is bit 2, FI bit 0). -/
theorem test_cvt_ranges : cvtOp .e4m3 .f32 .rn false 1 0x3F800000 = (0x38, 0) ∧ cvtOp .e4m3 .f32 .rn false 1 0x43FA0000 = (0x7F, 20) ∧
    cvtOp .e4m3 .f32 .rn true 1 0x43FA0000 = (0x7E, 20) ∧ cvtOp .i8 .f32 .rn false 1 0x4348B333 = (127, 1) ∧
    cvtOp .i8 .f32 .rn false 1 0x7FC00000 = (0, 1) := by decide +kernel

/-- R45, R196, R209: a quiet NaN passes through MIN to the other operand or as the canonical NaN; -0 is below +0; division by 0. -/
theorem test_float_corners : (minMax true .f32 1 0x00000000 0x80000000).1 = 0x80000000 ∧ divOp .f32 .rn false 1 0x3F800000 0 = (0x7F800000, 2) ∧
    divOp .f32 .rn false 1 0 0 = (0x7FC00000, 1) ∧ sqrtOp .f32 .rn false 1 0x40800000 = (0x40000000, 0) ∧
    sqrtOp .f32 .rn false 1 0xBF800000 = (0x7FC00000, 1) := by decide +kernel

/-- R240, R241: the worked signature of SMOV.I32 s1, 200 and SADD.I32 s2, s1, 127. -/
theorem test_signature : foldSig 0 0xC0820000 = 0xC0820000 ∧ foldSig 0xC0820000 200 = 0x410000A8 ∧
    foldSig 0x410000A8 0xC1040800 = 0x41045C20 ∧ foldSig 0x41045C20 127 = 0x822E105F := by decide +kernel

/-- R314: 2^24 takes a chunk of 1 twice and stays, each sum a tie that rounds to even. -/
theorem test_chunks_keep_their_order : accAdd (accAdd 0x4B800000 (.fin false 1 0)) (.fin false 1 0) = 0x4B800000 := by decide +kernel

/-! One step. -/

/-- The machine with instruction w where it fetches, slices and launch changed first. -/
def held (nbits w : Nat) (f : Slice → Slice) : State :=
  let s := State.reset.withFetchWord nbits w
  { s with teams := s.teams.map (·.mapGroups (·.mapSlices f)) }

def stepped (s : State) : Option State := match step s with
  | .next t => some t
  | _ => none

/-- Something of slice 0 after one step. -/
def sees {α : Type} (s : State) (f : Slice → α) : Option α :=
  (stepped s).bind fun t => (t.teams.head?.bind fun u => u.groups.head?.bind fun g => g.slices.head?).map f

/-- The class of the first fault record of the launch after one step (R350, R353). -/
def trapsWith (s : State) : Option (BitVec 8) := (stepped s).bind fun t => t.launches.head?.bind fun l => l.first.map (·.1)

/-- SADD.I32 s2, s1, 127 of the scope chapter: 200 + 127, and the slice at the next word. -/
theorem test_sadd : sees (held 64 0x0000007FC1040800 fun x => x.setS 1 200) (fun x => (x.getS 2, x.offset)) = some (0x147, 12) := by
  decide +kernel

/-- SSHR.N32 s3, s2, 7 of the scope chapter. -/
theorem test_sshr : sees (held 64 0x00000007C5061000 fun x => x.setS 2 0x147) (·.getS 3) = some 2 := by decide +kernel

/-- ADD.I32 v2, v16, v0: the last lane's sum wraps, and a lane that em leaves out keeps its register. -/
theorem test_add : sees (held 32 0x0084801C fun x =>
      { x.mapLanes fun j l => (l.put 16 (BitVec.ofNat 32 j.val) false).put 0 0xFFFFFFFF false with em := 0b1110 })
    (fun x => ((x.lane 0).get 2, (x.lane 1).get 2, (x.lane 3).get 2)) = some (0, 0, 2) := by decide +kernel

/-- SETLT.I32 p1, v2, v3 compares signed numbers. -/
theorem test_setlt : sees (held 32 0x0D02107C fun x => x.mapLanes fun _ l => (l.put 2 0x80000000 false).put 3 1 false)
    (fun x => (x.lane 2).pred 1) = some true := by decide +kernel

/-- SWAP v5, v6, 2: lane 0 reads lane 2. -/
theorem test_swap : sees (held 32 0b0_0_1000001_000101_000110_000010_111_0_0 fun x =>
    x.mapLanes fun j l => l.put 6 (BitVec.ofNat 32 (10 + j.val)) false) (fun x => ((x.lane 0).get 5, (x.lane 3).get 5)) = some (12, 11) := by
  decide +kernel

/-- LID v16, 0: the lane's number. -/
theorem test_lid : sees (held 32 0x1320001C id) (fun x => (x.lane 3).get 16) = some 3 := by decide +kernel

/-- BRA by a displacement of -32 when s3 is not 0 (R228). -/
theorem test_bra : sees (held 64 0xFFFFFFE0D0001802 fun x => { x.setS 3 1 with offset := 0x44, cbuf := x.cbuf.map ({ · with base := 0x40 }) })
    (fun x => (x.offset, x.inClause)) = some (0x24, false) := by decide +kernel

/-- CALL triple, 16 of the scalar chapter, from offset 0x10 with 512 bytes of spill: the link, the window, its lower end, and the
target (R230). -/
theorem test_call :
    (let s := held 64 0x00000014D0FC0200 fun x => { x with offset := 0x10, cbuf := x.cbuf.map ({ · with base := 0xC }) }
     sees { s with launches := s.launches.map fun l => { l with header := { l.header with spill := 512 } } } fun x =>
       (x.offset, x.getS 62, x.wb, x.lo, x.inClause)) = some (0x24, 0x40000006, 16, 16, false) := by decide +kernel

/-- MSPLIT s3, (!p2): em holds the lanes whose predicate is clear, s3 the lanes there were (R233). -/
theorem test_msplit : sees (held 32 0b1_0_0100100_000011_000000_000000_01010 fun x =>
    { x with l0 := { x.l0 with p := 4 }, em := 0b0111 }) (fun x => (x.getS 3, x.em)) = some (7, 0b0110) := by decide +kernel

/-- SIGCHK with the folded signature of the scalar chapter: sg is 0 and its own words are not folded (R241). -/
theorem test_sigchk : sees (held 64 0x822E105FD6800000 fun x => { x with sg := 0x822E105F }) (·.sg) = some 0 := by decide +kernel

/-- With another signature it traps with class 0x23 (R364). -/
theorem test_sigchk_traps : trapsWith (held 64 0x822E105FD6800000 fun x => { x with sg := 1 }) = some 0x23 := by decide +kernel

/-- SYSRD in a launch that is not privileged: class 0x05 (R162). -/
theorem test_privilege : trapsWith (held 32 0b1_0_1001100_000110_000010_000000_00000 id) = some 5 := by decide +kernel

/-- TRAP 5: class 0x24 (R243). -/
theorem test_trap : trapsWith (held 64 (5 * 2 ^ 32 + 0b1_1_0101111_000000_000000_000000_00000) id) = some 0x24 := by decide +kernel

/-- The word 0 is an illegal instruction: class 0x01 (R158, R353). -/
theorem test_illegal_word : trapsWith (held 32 0 id) = some 1 := by decide +kernel

/-- EXIT ends the slices (R236). -/
theorem test_exit : sees (held 32 0x94800000 id) (·.exited) = some true := by decide +kernel

/-- A source with a pending mark traps with class 0x06 (R133). -/
theorem test_dependence : trapsWith (held 32 0x0084801C fun x => { x with marks := [{ reg := .v 16, pending := true, flag := some 1 }] }) = some 6 := by
  decide +kernel

/-- A package without power takes no step but bring-up (R400). -/
theorem test_no_power : stepped { State.reset with powered := false } = none := by decide +kernel

/-- The instruction that stands where reset fetches runs: its words and no other are read. -/
theorem test_fetch_word : sees (State.reset.withFetchWord 64 0x000000C8C0820000) (fun x => (x.getS 1, x.offset)) = some (200, 12) := by
  decide +kernel

end Sys2Proof.Tests
end

