-- ==== Sys2Proof/Tests/WitnessesA.lean ====
section
/-! SUPPORT. Witnesses of the hypotheses of the statements about the lanes' and scalars' arithmetic and about control. -/

set_option Elab.async false

namespace Sys2Proof.Tests

open Sys2Proof.Machine

theorem witness_LaneBinary : (whole id).unmarked [.v 2, .v 3] [.v 1] = true ∧ (whole id).cleanLanes always [.v 2, .v 3] = true ∧
    (whole id).active always (Group.start (sceneLaunch 8 4 false) 6 0 true { sub := 0, entry := 0, base := 0, lanePos := 0, start := 0 } 0 none)
      (Slice.start 0 0 0 60 0) 3 = true := by decide +kernel

theorem witness_LaneBinary_immediate : (whole id).unmarked [.v 63] [.v 63] = true ∧ (whole id).cleanLanes ⟨2, true⟩ [.v 63] = true := by
  decide +kernel

theorem witness_LaneUnary : (whole id).unmarked [.v 2] [.v 1] = true ∧ (whole id).cleanLanes always [.v 2] = true ∧
    (whole id).unmarked [] [.v 1] = true := by decide +kernel

theorem witness_LaneTests : (whole id).unmarked [.v 2, .v 3] [] = true ∧ (whole id).cleanLanes always [.v 2, .v 3] = true ∧
    (whole id).unmarked [.v 2] [] = true ∧ (whole id).cleanLanes always [.v 2] = true := by decide +kernel

/-- Binary, three sources, shift, unary, class, conversion, predicate; a narrow, a 32-bit and a 64-bit type. -/
theorem witness_TypedResults : ∀ t ∈ [ETy.i8, .f32, .f64], ∀ rs ∈ [vRegs t 2 ++ vRegs t 4, vRegs t 2 ++ vRegs t 4 ++ vRegs t 6,
      vRegs t 2 ++ [.v 4], vRegs t 2], (whole id).cleanLanes always rs = true ∧
    ∀ ws ∈ [vRegs t 8, [.v 8], []], (whole id).unmarked rs ws = true := by decide +kernel

theorem witness_TypedResults_dp4 : (∃ t, (whole id).team? 1 = some t ∧ t.die.val < 4) ∧
    (∃ t, ({ whole id with teams := [{ sceneTeam 8 2 (fun _ x => x) with die := 4 }] } : State).team? 1 = some t ∧ 4 ≤ t.die.val) ∧
    (whole id).unmarked [.v 1, .v 2, .v 3] [.v 4] = true ∧ (whole id).cleanLanes always [.v 1, .v 2, .v 3] = true :=
  ⟨is (by decide +kernel), is (by decide +kernel), by decide +kernel⟩

/-- An integer type; a NaN, a signalling one, infinities and zeros of float types. -/
theorem witness_ArithmeticResults : ETy.n16.isInt = true ∧ ETy.f32.isFloat = true ∧ (unpack .f32 false 0x7FC00000).isNan = true ∧
    (unpack .f16 false 0x7C01).isSnan = true ∧ unpack .f32 false 0x7F800000 = .inf false ∧ unpack .f32 false 0xFF800000 = .inf true ∧
    (unpack .bf16 true 0x7F80).isInf = true ∧ (unpack .bf16 true 0x0001).isZero = true := by decide +kernel

theorem witness_VariableLatency : ∀ t ∈ [ETy.f16, .f32, .f64], (whole id).unmarked (vRegs t 2 ++ vRegs t 4) (vRegs t 8) = true ∧
    (whole id).cleanLanes always (vRegs t 2 ++ vRegs t 4) = true ∧ (whole id).unmarked (vRegs t 2) (vRegs t 8) = true ∧
    (whole id).cleanLanes always (vRegs t 2) = true := by decide +kernel

/-- A result on its way in a group with a slice that has exited and one that has not. -/
theorem witness_VariableLatency_return :
    let s := withOp (whole fun x => if x.num = 1 then { x with exited := true } else x) (.result [.lane 0 3 7 5 false, .scalar 0 2 9 true]) none
    (match s.team? 1 with
     | some t => match t.group? 0 with
       | some g => s.named && s.calm 1 && !t.frozen && decide (g.ops = [sceneOp (.result [.lane 0 3 7 5 false, .scalar 0 2 9 true]) none]) &&
           g.slices.all fun x => x.hold == .none
       | none => false
     | none => false) = true := by decide +kernel

theorem witness_Permutes : (whole id).unmarked [.v 2, .v 3] [.v 1] = true ∧ (whole id).openLanes [2, 3] = true ∧
    (whole id).cleanLanes always [.v 3] = true ∧ (whole id).unmarked [.v 2] [.v 1] = true ∧ (whole id).openLanes [2] = true ∧
    (∀ p ∈ (whole id).members, (7 : Fin 64).val < p.1.width) ∧ (whole id).unmarked [.v 2, .v 3, .v 4] [.v 1] = true ∧
    (whole id).cleanLanes always [.v 2, .v 3, .v 4] = true := by decide +kernel

theorem witness_Permutes_lead : (whole id).gangAll (fun g _ => !((whole id).leadOf always g 3).2) = true := by decide +kernel

theorem witness_Permutes_illegal : ∃ p ∈ (whole id).members, p.1.width ≤ (8 : Fin 64).val := by decide +kernel

/-- Mode 1 is no mode of its own in a word (R49): a rounding taken from the mode register, and one from the word; the operands are 1.5, a subnormal and −0. -/
theorem witness_RoundedResults : (∀ t ∈ [ETy.f16, .bf16, .f32, .f64], t.isFloat = true) ∧ 1 ≤ effRm .mode 1 ∧ effRm .mode 0x305 ≤ 5 ∧
    (unpack .f32 false 0x3FC00000).isFin = true ∧ (unpack .f32 false 1).isFin = true ∧ (unpack .f32 false 0x80000000).isZero = true ∧
    (unpack .f16 (flushes .f16 0x20) 0x0001).isFin = true ∧ q4Scale 0x1C = some (-4) ∧ isFloaty .e4m3 = true ∧ ETy.i64.isInt = true ∧
    ETy.f32.isSpecial = true ∧ 0 < (unpack .f32 false 0x3FC00000).rat ∧ (unpack .f32 false 1).rat ≠ 0 := by decide +kernel

/-- Comparisons: both NaN, one NaN, a zero against the other zero, and numbers in either order. -/
theorem witness_ComparedResults : let u := unpack .f32 false
    (u 0x7FC00000).isNan = true ∧ (u 0xFF800001).isNan = true ∧ (u 0x3F800000).isNan = false ∧ (u 0x80000000).neg = true ∧
    ¬ (u 0).Below (u 0x80000000) ∧ ¬ (u 0x80000000).Below (u 0) ∧ (u 0).neg = false ∧ (u 0xFF7FFFFF).Below (u 1) ∧ (u 0xFF800000).Below (u 0) ∧
    ETy.n64.isInt = true := by
  simp only [FVal.Below]
  decide +kernel

/-- Conversions: a NaN, an infinity, a tie, the largest value, and integers. -/
theorem witness_ConvertedResults : let u := unpack .f32 false
    isFloaty .f32 = true ∧ isFloaty .e5m2 = true ∧ (u 0x7F800001).isNan = true ∧ u 0xFF800000 = .inf true ∧ (u 0x40200000).isFin = true ∧
    (u 0x7F7FFFFF).isFin = true ∧ ETy.i8.isInt = true ∧ ETy.i64.isSigned = true ∧ 1 ≤ effRm .ra 0 ∧ effRm .ra 0 ≤ 5 := by decide +kernel

/-- The special operands, and 0.25, 0.75, 0.5, 1.5, 2 and −1 (with n = 0, 0, 0, 1, 2 and −1), and 8 and 1 as powers. -/
theorem witness_SpecialOperands : let u := unpack .f32 false
    ETy.f32.isSpecial = true ∧ (u 0x7FC00000).isNan = true ∧ (u 0x80000000).isZero = true ∧ u 0x7F800000 = .inf false ∧ u 0xFF800000 = .inf true ∧
    (u 0x80000001).isFin = true ∧ (u 0x80000001).rat < 0 ∧ 2 * (u 0x3F000000).rat = (1 : Int) ∧ 4 * (u 0x3E800000).rat = 4 * (0 : Int) + 1 ∧
    4 * (u 0x3F400000).rat = 4 * (0 : Int) + 3 ∧ 4 * (u 0x3E800000).rat = 2 * (0 : Int) + 1 ∧ (u 0xBF800000).rat = (-1 : Int) ∧
    2 * (u 0x3FC00000).rat = 2 * (1 : Int) + 1 ∧ (u 0x41000000).rat = (2 : Rat) ^ (3 : Int) ∧ (u 0x3F800000).rat = (2 : Rat) ^ (0 : Int) := by
  decide +kernel

theorem witness_Scalar32 : (whole id).unmarked [.s 1, .s 2] [.s 3] = true ∧ (whole id).cleanScalars [.s 1, .s 2] = true ∧
    (whole id).unmarked [.s 1] [.s 1] = true ∧ (whole id).cleanScalars [.s 1] = true := by decide +kernel

theorem witness_ScalarMovesAnd64 : ∀ rs ∈ [[Reg.s 2], [.s 2, .s 4], sPair 2 ++ sPair 4, sPair 2, sPair 2 ++ [.s 4], []],
    (whole id).cleanScalars rs = true ∧ ∀ ws ∈ [[Reg.s 6], sPair 6], (whole id).unmarked rs ws = true := by decide +kernel

theorem witness_RegisterFrames : (whole id).unmarked [.v 2, .v 3] [.v 1] = true ∧ Next (exec (.addI32 ⟨always, 1, 2, 3⟩) (whole id)) (fun _ => True) ∧
    (whole id).unmarked [.s 1, .s 2] [.s 3] = true ∧ (whole id).cleanScalars [.s 1, .s 2] = true ∧
    Next (exec (.saddI32 ⟨3, 1, 2⟩) (whole id)) (fun _ => True) :=
  ⟨by decide +kernel, next (by decide +kernel), by decide +kernel, by decide +kernel, next (by decide +kernel)⟩

/-- Lane 2 of slice 0 holds poison in its register 2. -/
theorem witness_BadSources_poison :
    let s := whole fun x => { x with l2 := { x.l2 with vp := 4 } }
    (match s.group? 1 0 with
     | some g => match g.slice? 0 with
       | some x => s.unmarked [.v 2, .v 3] [.v 1] && s.cur.first && x.inGang 0 && x.dRec.isNone && s.active always g x 2 &&
           (x.lane 2).poisoned (s.physOf g x 2)
       | none => false
     | none => false) = true := by decide +kernel

theorem witness_BadSources_pending :
    Solo (lone fun x => { x with marks := [{ reg := .v 2, pending := true, flag := some 1 }] }) fun g x _ _ =>
      (whole id).cur.first = true ∧ x.marked (.v ((x.wb + 2) % g.budget)) true = true := solo (by decide +kernel)

theorem witness_BadSources_scalar :
    let s := lone fun x => { x with sp := 2 }
    ∃ g x, s.members = [(g, x)] ∧ s.unmarked [.s 1, .s 2] [.s 3] = true ∧ s.replayOk [(x, mkRec g x 0 { cls := .poison, reason := 1 })] = false ∧
      (x.sp.getLsbD (1 : SReg).val || x.sp.getLsbD (2 : SReg).val) = true ∧
      ∀ t ∈ s.teams, t.uid = s.cur.team → ∀ h ∈ t.groups, ∀ y ∈ h.slices, y.inGang s.cur.gang = true → y = x := by
  refine ⟨_, _, rfl, by decide +kernel, by decide +kernel, by decide +kernel, ?_⟩
  intro t ht _ h hh y hy hg
  cases List.mem_singleton.mp ht
  obtain rfl | hh := List.mem_cons.mp hh
  · obtain rfl | hy := List.mem_cons.mp hy
    · rfl
    · cases List.mem_singleton.mp hy; exact absurd hg (by decide +kernel)
  · cases List.mem_singleton.mp hh
    obtain rfl | hy := List.mem_cons.mp hy
    · exact absurd hg (by decide +kernel)
    · cases List.mem_singleton.mp hy; exact absurd hg (by decide +kernel)

/-- A word with an extension word, which is its clause's last, and one with a word after it. -/
theorem witness_WalkAndSignature_walk : ∀ ws ∈ [[(0xBF8007F8 : Word), 0xC0820000, 200], [0xBF8007F8, 0x0084003C, 0x0084003C]],
    let b : ClauseBuf := { base := 0, planes := (Vector.replicate 4 []).set 0 ws }
    (({ Slice.start 0 0 0 60 0 with offset := 4, inClause := true, cbuf := some b } : Slice).wordAt 0).isSome = true := by decide +kernel

theorem witness_WalkAndSignature_check : (whole fun x => { x with sg := 7 }).gangAll (fun _ x => x.sg == 7) = true ∧
    Solo (lone fun x => { x with sg := 7 }) (fun _ x _ _ => x.sg ≠ 8) := ⟨by decide +kernel, solo (by decide +kernel)⟩

/-- Slice 0 of each group takes BNZ s3, slice 1 does not. -/
theorem witness_Branches :
    let s := whole fun x => x.setS 3 (BitVec.ofNat 32 (1 - x.num))
    s.named = true ∧ Is (s.team? s.cur.team) (fun t0 => ∀ m ∈ s.members, m.2.getS 3 ≠ 0 → s.isTarget t0 (m.2.offset + 28) = true) ∧
      s.unmarked [.s 3] [] = true ∧ s.cleanScalars [.s 3] = true := ⟨by decide +kernel, is (by decide +kernel), by decide +kernel⟩

/-- The text is one page of words that are no headers. -/
theorem witness_Branches_trap :
    let s := (lone id).updDie 0 fun d =>
      { d with text := [{ object := 0, version := 0, page := 1, bytes := List.replicate 64 0 }] }
    Solo s fun _ x t _ => s.isTarget t (x.offset + 28) = false := solo (by decide +kernel)

/-- A group at CALL or RET that has stored to its spill stack; the store comes after a load of a shared word that acquires. -/
theorem witness_CallsWait :
    let load : Part := { spot := .chip .shared 0, ty := .i32, act := .load, dst := [] }
    let store : Part := { spot := .chip .stack 64, ty := .i32, act := .store [(1, false)], dst := [] }
    let s := (single 0 0 id).updGroup 1 0 fun g =>
      { g with ops := [sceneOp (.access .acq [load] []) none,
                       { sceneOp (.access .relaxed [store] []) none with id := 4, seq := 1, prior := [3] }], nextOp := 5, issued := 2 }
    OneGroup s fun g _ _ _ => g.stackParts (g.gangMask s.cur.gang) ≠ [] ∧
      ∀ p ∈ g.stackParts (g.gangMask s.cur.gang), (s.performPart s.cur.team g.num p.1 p.2).isNone = true := oneGroup (by decide +kernel)

/-- The lower end that a CALL of w positions leaves. -/
def callLow (g : Group) (x : Slice) (w : Nat) : Nat := max x.lo (x.wb + w + 64 - g.budget)

/-- A CALL that spills nothing, and one whose window reaches past the register file: 64 + 6 positions in 64 registers. -/
theorem witness_CallsAndReturns_call : ∀ w ∈ [0, 6], soloTest (lone id) (fun g x t _ =>
    (lone id).unmarked [] [.s 62] && (g.stackParts (g.gangMask 0)).isEmpty && decide (x.offset.toNat + 8 < 2 ^ 28) && (lone id).isTarget t (x.offset + 0x20) &&
    (decide (callLow g x w ≤ x.lo) || decide (4 * g.width * callLow g x w ≤ (lone id).bound t .stack)) && x.marks.isEmpty &&
    decide (64 ≤ g.budget ∧ g.budget ≤ 256 ∧ x.num < g.width / 4) && g.stack.wf && decide (x.lo < callLow g x w ↔ w = 6)) = true := by
  decide +kernel

/-- A RET of 6 positions from window base 16, whose positions below 12 lie in the spill stack. -/
theorem witness_CallsAndReturns_return :
    soloTest (lone fun x => { x.setS 62 (BitVec.ofNat 32 (6 * 2 ^ 26 + 7)) with wb := 16, lo := 12 }) (fun g x t _ =>
      (lone id).unmarked [.s 62] [] && (lone id).cleanScalars [.s 62] && (x.getS 62).extractLsb' 26 6 == 6 &&
      (lone id).isTarget t 28 && (x.getS 62).extractLsb' 0 26 == 7 && (g.stackParts (g.gangMask 0)).isEmpty && x.wb == 16 && x.lo == 12 && x.marks.isEmpty &&
      decide (64 ≤ g.budget ∧ g.budget ≤ 256)) = true := by decide +kernel

theorem witness_MasksPlanesRegions : (whole id).unmarked [] [.s 4] = true ∧ (whole id).unmarked [.s 4] [] = true ∧
    (whole id).cleanScalars [.s 4] = true ∧ (whole id).undeferred = true := by decide +kernel

/-- One group, all of whose slices stand at one offset. -/
theorem witness_RegangsAndExits_regang :
    let s := { whole id with teams := [sceneTeam 8 1 fun _ x => x] }
    s.named = true ∧ s.undeferred = true ∧ s.calm s.cur.team = true ∧
      Is (s.team? s.cur.team) fun t => Is t.groups.head? fun g => t.groups = [g] ∧ Is g.slices.head? fun x =>
        ∀ y ∈ g.slices, y.inGang s.cur.gang = true ∧ y.offset = x.offset ∧ y.cbuf = x.cbuf := by
  refine ⟨by decide +kernel, by decide +kernel, by decide +kernel, _, rfl, _, rfl, rfl, _, rfl, by decide +kernel⟩

/-- Slice 0 comes to REGANG; slice 1 is elsewhere, or waits at another REGANG. -/
theorem witness_RegangsAndExits_wait : ∀ h ∈ [Hold.none, .regang],
    let s := single 0 0 fun x => if x.num = 1 then { x with gang := 5, offset := 12, hold := h } else x
    OneGroup s fun g _ t _ => s.undeferred = true ∧ s.calmBut s.cur.team (fun h => h = .regang) = true ∧
      (∀ k ∈ t.groups, k.num ≠ g.num → k.regangDone = none) ∧
      (g.live.any fun y => y.gang != s.cur.gang && (y.hold != .regang || s.members.any fun m => m.2.offset != y.offset)) = true := by
  intro h hh
  simp only [List.mem_cons, List.not_mem_nil, or_false] at hh
  obtain rfl | rfl := hh <;> exact oneGroup (by decide +kernel)

theorem witness_RegangsAndExits_exit : (whole id).named = true ∧ (whole id).undeferred = true ∧ (whole id).calm 1 = true ∧
    (whole id).unraised = [] := by decide +kernel

/-- The gang of two groups. -/
theorem witness_RegangsAndExits_groups : let s := whole id
    Is (s.team? s.cur.team) (fun t => t.die.val < 4) ∧ 2 ≤ s.gangGroups.length ∧ s.gangGroups = [0, 1] := by
  refine ⟨is (by decide +kernel), by decide +kernel, by decide +kernel⟩

/-- In every group of the gang the highest slice holds a rounding mode from 1 to 5 in s4. -/
def modesLegal (s : State) : Bool := s.teams.all fun t => t.groups.all fun g =>
  match (g.slices.filter (·.inGang s.cur.gang)).getLast? with
  | some z => decide (1 ≤ ((z.getS 4).extractLsb' 0 3).toNat) && decide (((z.getS 4).extractLsb' 0 3).toNat ≤ 5)
  | none => true

theorem witness_ModeRegister : (whole id).named = true ∧ (whole id).unmarked [] [.s 5] = true ∧
    modesLegal (whole (·.setS 4 1)) = true ∧ modesLegal (whole (·.setS 4 0xFFFFFFF5)) = true ∧
    (whole (·.setS 4 1)).unmarked [.s 4] [] = true ∧ (whole (·.setS 4 1)).cleanScalars [.s 4] = true := by decide +kernel

theorem witness_ModeRegister_trap : ∀ v ∈ [(0 : Word), 6],
    Solo (lone (·.setS 4 v)) fun _ x _ _ => (lone (·.setS 4 v)).unmarked [.s 4] [] = true ∧ (lone (·.setS 4 v)).cleanScalars [.s 4] = true ∧
      (((x.getS 4).extractLsb' 0 3).toNat = 0 ∨ 5 < ((x.getS 4).extractLsb' 0 3).toNat) := by
  intro v hv
  simp only [List.mem_cons, List.not_mem_nil, or_false] at hv
  obtain rfl | rfl := hv <;> exact solo (by decide +kernel)

theorem witness_TrapEntry : ∃ g x t l, (lone id).alone g x ∧ (lone id).team? (lone id).cur.team = some t ∧
    (lone id).launch? t.launch = some l ∧ t.group? g.num = some g ∧ g.num < 255 ∧ x.num < 255 ∧ g.trapped = false ∧ g.ended = false ∧
    x.deferred = 0 ∧ (lone id).calm 1 = true ∧ g.laneOps = [] ∧ (lone id).control.getLsbD (16 + t.partition.val) = false ∧
    (∀ y ∈ g.slices, y.dbg = .none) ∧ l.first = none :=
  ⟨_, _, _, _, ⟨rfl, by decide +kernel, rfl⟩, rfl, rfl, rfl, by decide +kernel, by decide +kernel, rfl, rfl, rfl, by decide +kernel, rfl,
    by decide +kernel, by decide +kernel, rfl⟩

/-- The debug bit of partition 0 is set, and one slice of the group has exited; a record of a group of the team. -/
theorem witness_TrapEntry_debug :
    let s := { single 2 0 fun x => if x.num = 1 then { x with exited := true } else x with control := 0x10000 }
    OneGroup s fun g _ t _ => s.control.getLsbD (16 + t.partition.val) = true ∧ g.num < 256 ∧ (∀ y ∈ g.slices, y.num < 255 ∧ y.dbg = .none) ∧
      (s.part t.partition.val).events.length < Config.eventDepth ∧ g.trapped = false ∧ g.ended = false ∧ (∀ m ∈ s.members, m.2.deferred = 0) ∧
      s.calm s.cur.team = true ∧ g.laneOps = [] ∧ (t.group? (0 : BitVec 8).toNat).isSome = true := oneGroup (by decide +kernel)

/-! Deferred faults. -/

/-- Every lane of the gang holds a null address (R274 order 2) in its pair 2. -/
theorem witness_DeferredFaults_access : let s := single 0 0 (setLanes 2 7)
    s.freshOps = true ∧ OneGroup s fun g x t _ => s.cur.first = true ∧ x.dFresh = false ∧ s.active always g x 0 = true ∧
      s.unmarked (vPair 2 ++ vRegs .i32 6) (vRegs .i32 4) = true ∧ s.cleanLanes always (vPair 2 ++ vRegs .i32 6) = true ∧
      (match s.locate t g true .read (s.addrOf g x 0 2) 4, s.locate t g true .write (s.addrOf g x 0 2) 4 with
       | .fault _, .fault _ => true
       | _, _ => false) = true := ⟨by decide +kernel, oneGroup (by decide +kernel)⟩

/-- A slice whose lane 0 is deferred by poison, at a region's entry. -/
def deferring (x : Slice) : Slice :=
  if x.num = 1 then { x with ie := { valid := true } } else
  { x with deferred := 1, em := 14, ie := { valid := true, mask := 15 },
           dRec := some { fault := { cls := .poison, reason := 1 }, flags := 1, group := 0, slice := 0, lane := 0, laneMask := 1 } }

/-- A gang that may replay, with no result on its way and with one; and one that may not. -/
theorem witness_DeferredFaults_traps :
    (let s := single 1 2 deferring
     OneGroup s fun g _ _ l => s.begins = true ∧ s.cur.first = true ∧ s.unmarked [.s 4] [.s 5] = true ∧
       l.policy.getLsbD 0 = true ∧ l.header.flags / 2 % 2 = 1 ∧ g.ops = [] ∧
       ∀ q ∈ s.members, q.2.ie.valid = true ∧ (∀ r ∈ s.members, r.2.ie.entry = q.2.ie.entry) ∧ q.2.replay.val < 2 ∧ q.2.dOther = false) ∧
    (let s := withOp (single 1 2 deferring) (.result [.lane 0 3 7 5 false]) none
     OneGroup s fun g _ _ _ => s.begins = true ∧ ∃ o ∈ g.ops, o.slice = 0 ∧ o.returned = false) ∧
    (let s := single 1 0 deferring
     OneGroup s fun g _ t _ => s.begins = true ∧ s.ownRecords = true ∧ s.calm s.cur.team = true ∧ g.laneOps = [] ∧ g.trapped = false ∧ g.ended = false ∧
       g.num < 255 ∧ s.control.getLsbD (16 + t.partition.val) = false ∧ (∀ y ∈ g.slices, y.dbg = .none ∧ y.num < 255) ∧
       (s.members.any fun q => q.2.deferred != 0 && q.2.dRec.isSome) = true) :=
  ⟨oneGroup (by decide +kernel), oneGroup (by decide +kernel), oneGroup (by decide +kernel)⟩

/-- The operands of the trap points that have any are free of marks. -/
theorem witness_DeferredFaults_marks : let s := single 1 2 deferring
    OneGroup s fun g x t _ => (∀ p ∈ [(([.s 4], [.s 5]) : List Reg × List Reg), (sPair 4 ++ sRegs .i64 6, sRegs .i64 8),
        (sPair 4 ++ sRegs .n32 6 ++ sRegs .n32 7, sRegs .n32 8)], s.unmarked p.1 p.2 = true) ∧ t.die.val < 4 ∧
      s.unmarked (matReads t g x (mmaArgs ⟨always, false, 0, 16, 4, 12, 1⟩ .mma)) [] = true := oneGroup (by decide +kernel)

/-- Without a ring, and with a ring of 16 records in the mapped page at 0x1000. -/
theorem witness_TrapEntry_ring :
    ((lone id).part 0).faultRing.extractLsb' 0 5 = 0 ∧
    (let s := (mapped (lone id)).updPart 0 fun p => { p with faultRing := 0x1004 }
     (s.part 0).faultRing.extractLsb' 0 5 ≠ 0 ∧
     Ok ((s.tick 0 |>.updPart 0 fun x => { x with faultSeq := x.faultSeq + 1 }).writeGlobal 0 0 0x1000 (List.replicate 64 (1, false))) fun _ => True) :=
  ⟨by decide +kernel, by decide +kernel, okay (by decide +kernel)⟩

theorem witness_IdentitiesAndMarks : Solo (lone id) (fun _ _ _ _ => (lone id).unmarked [] [.s 5] = true) ∧ (whole id).named = true ∧
    (whole id).begins = true ∧ (whole id).control.getLsbD 16 = false ∧ ((whole id).die 0).trace.getLsbD 0 = false ∧
    Solo ((lone id).updDie 0 fun d => { d with trace := 1 }) (fun _ _ t _ =>
      (((lone id).updDie 0 fun d => { d with trace := 1 }).die t.die.val).trace.getLsbD 0 = true) :=
  ⟨solo (by decide +kernel), by decide +kernel, by decide +kernel, by decide +kernel, by decide +kernel, solo (by decide +kernel)⟩

theorem witness_PrivilegedInstructions : Solo (lone id) (fun _ _ _ l => l.privileged = false) ∧
    Solo (lonePrivileged (·.setS 2 0x11)) (fun _ x _ l => l.privileged = true ∧ (x.getS 2).toNat = 0x11) ∧
    Solo (lonePrivileged (·.setS 2 0x10000)) (fun _ x _ l => l.privileged = true ∧ (x.getS 2).toNat ∉ [0, 1, 2, 0x10, 0x11, 0x12, 0x20]) ∧
    (lonePrivileged id).unmarked [.s 2] (sPair 6) = true ∧ (lonePrivileged id).cleanScalars [.s 2] = true :=
  ⟨solo (by decide +kernel), solo (by decide +kernel), solo (by decide +kernel), by decide +kernel, by decide +kernel⟩

/-- SYSRD of a gang of four slices. -/
theorem witness_PrivilegedInstructions_reads : let s := { whole (·.setS 2 0x20) with launches := [sceneLaunch 8 4 true] }
    s.unmarked [.s 2] (sPair 6) = true ∧ s.cleanScalars [.s 2] = true ∧ s.begins = true ∧ s.named = true ∧ (∀ m ∈ s.members, (m.2.getS 2).toNat = 0x20) := by
  decide +kernel

/-- A write of register 0x12 of a Jenben 6 die with the grant and without. -/
theorem witness_PrivilegedInstructions_write :
    Solo (lonePrivileged fun x => setPair 6 0xFFFFFFFE (x.setS 5 0x12)) (fun _ x t l => l.privileged = true ∧ (x.getS 5).toNat = 0x12 ∧
      ((lonePrivileged id).die t.die.val).grant = false) ∧
    Solo ((lonePrivileged fun x => setPair 6 0xFFFFFFFE (x.setS 5 0x12)).updDie 0 fun d => { d with grant := true }) (fun _ x _ _ =>
      x.getS 7 ++ x.getS 6 = (0xFFFFFFFE : DWord)) ∧
    (((lonePrivileged id).updDie 0 fun d => { d with grant := true }).die 0).grant = true ∧
    (lonePrivileged id).unmarked (.s 5 :: sPair 6) [] = true ∧ (lonePrivileged id).cleanScalars (.s 5 :: sPair 6) = true :=
  ⟨solo (by decide +kernel), solo (by decide +kernel), by decide +kernel, by decide +kernel, by decide +kernel⟩

/-- A value inside the third map of a Jenben 6 die, and a bit of it that the map without core 128 has not. -/
theorem witness_PrivilegedInstructions_map : (0x00000000FFFFFFFE : DWord) &&& ~~~0x00000000FFFFFFFF = 0 ∧
    (1 : DWord).getLsbD 0 = true ∧ (0xFFFFFFFE : DWord).getLsbD 0 = false ∧ 64 * 2 + 0 < 160 := by decide +kernel

end Sys2Proof.Tests
end

