-- ==== Sys2Proof/Tests/WitnessesB.lean ====
section
/-! SUPPORT. Witnesses of the hypotheses of the statements about memory and waiting. -/

set_option Elab.async false

namespace Sys2Proof.Tests

open Sys2Proof.Machine

/-! Accesses. -/

/-- A lone slice whose lanes hold an address in v8 and v9. -/
def laneScene (a : DWord) : State := allotted (lone (setLanes 8 a))

/-- Loads of 4 bytes and stores of 8 reach each aperture. -/
theorem witness_LaneAccesses : ∀ a ∈ [inShared 64, inStack 4088, inScratch 8], ∀ f, (laneScene a).named = true ∧
    (laneScene a).eachTurn f (fun s t g x => s.lanesReach always t g x .read 8 4 = true) ∧
    (laneScene a).eachTurn f (fun s t g x => s.lanesReach always t g x .write 8 8 = true) := by
  intro a ha f
  simp only [List.mem_cons, List.not_mem_nil, or_false] at ha
  obtain rfl | rfl | rfl := ha <;> exact ⟨by decide +kernel, oneTurn (by decide +kernel) f, oneTurn (by decide +kernel) f⟩

/-- The loads of a gang of four slices, one after another. -/
theorem witness_LaneAccesses_gang : let s := whole (setLanes 8 (inShared 64))
    s.eachTurn (fun s1 _ g x => s1.accessIssued g x (vRegs .i32 20) .relaxed
      (s.lanePartsOf always g x 8 .i32 (fun _ => .load) fun j => s.laneDstOf g x j .i32 20))
      (fun s1 t g x => s1.lanesReach always t g x .read 8 4 = true) := turns (by decide +kernel)

theorem witness_LaneAccesses_registers : ∀ t ∈ [ETy.n8, .i32, .f64],
    (laneScene 0).unmarked (vPair 8) (vRegs t 20) = true ∧ (laneScene 0).cleanLanes always (vPair 8) = true ∧
    (laneScene 0).unmarked (vPair 8 ++ vRegs t 20) [] = true := by decide +kernel

theorem witness_LaneAccesses_deposits : (whole id).named = true ∧ (whole id).unmarked (.v 8 :: vRun 20 4) [] = true ∧
    (whole id).cleanLanes always (.v 8 :: vRun 20 4) = true ∧
    Is ((whole id).team? 1) (fun t => ((whole id).die t.die.val).curd.length + 4 * (whole id).members.length ≤ Config.curdRecords) :=
  ⟨by decide +kernel, by decide +kernel, by decide +kernel, is (by decide +kernel)⟩

theorem witness_LaneAtomics : ∀ ty ∈ [ETy.i32, .n64], ∀ f, let s := laneScene (inShared 64)
    s.named = true ∧ s.eachTurn f (fun s1 t g x => s1.lanesReach always t g x .write 8 ty.bytes = true ∧ ∀ j, s.active always g x j = true →
      s1.findsPoison t (s.cur.source g) (.chip (spaceOf (s.addrOf g x j 8)).1 (spaceOf (s.addrOf g x j 8)).2) ty.bytes = false) ∧
    (∀ rd ∈ [vPair 8 ++ vRegs ty 12, vPair 8 ++ vRegs ty 12 ++ vRegs ty 14],
      s.unmarked rd (vRegs ty 20) = true ∧ s.cleanLanes always rd = true) := by
  intro ty h f
  simp only [List.mem_cons, List.not_mem_nil, or_false] at h
  obtain rfl | rfl := h <;> exact ⟨by decide +kernel, oneTurn (by decide +kernel) f, by decide +kernel⟩

theorem witness_LaneAtomics_values : (0xFFFFFFFF : Nat) < 2 ^ 32 ∧ (0 : Nat) < 2 ^ 32 := by decide

/-- A lone slice with an address in s8 and s9, pages mapped. -/
def scalarScene (a : DWord) : State := mapped (allotted (lone (setPair 8 a)))

/-- Where the address leads. -/
def spotIn (s : State) (acc : Access) (n : Nat) (g : Group) (x : Slice) : Spot :=
  match s.team? s.cur.team with
  | some t => match s.locate t g false acc (x.pair 8) n with
    | .place k => k
    | _ => .chip .nowhere 0
  | none => .chip .nowhere 0

/-- An address of each aperture, and one in HBM4E under a key. -/
theorem witness_ScalarAccesses : ∀ a ∈ [inShared 64, inStack 4088, inScratch 16, 0x1040], ∀ f, let s := scalarScene a
    s.named = true ∧ s.begins = true ∧
    s.whenInTurn f (fun s1 t g x => s1.locate t g false .read (x.pair 8) 4 = .place (spotIn s .read 4 g x) ∧
      (false = true → s1.findsPoison t g (spotIn s .read 4 g x) 4 = false)) ∧
    s.whenInTurn f (fun s1 t g x => s1.locate t g false .write (x.pair 8) 8 = .place (spotIn s .write 8 g x) ∧
      (true = true → s1.findsPoison t g (spotIn s .write 8 g x) 8 = false)) := by
  intro a ha f
  simp only [List.mem_cons, List.not_mem_nil, or_false] at ha
  obtain rfl | rfl | rfl | rfl := ha <;>
    exact ⟨by decide +kernel, by decide +kernel, oneTurn (by decide +kernel) _, oneTurn (by decide +kernel) _⟩

theorem witness_ScalarAccesses_registers : ∀ ty ∈ [ETy.n8, .i32, .f64], ∀ rd ∈ [sPair 8, sPair 8 ++ sRegs ty 12, sPair 8 ++ sRegs ty 12 ++ sRegs ty 14],
    ∀ wr ∈ [sRegs ty 20, []], (lone id).unmarked rd wr = true ∧ (lone id).cleanScalars rd = true := by decide +kernel

/-! Accesses return. -/

def onChip (sp : Space) (off : Nat) (act : MemAct) (dst : List RegWrite) : Part := { spot := .chip sp off, ty := .i32, act := act, dst := dst }

/-- An operation of the group that holds accesses. -/
def accessScene (parts : List Part) : State := withOp (single 0 0 id) (.access .relaxed parts []) none

/-- A load, a store, an atomic and a compare-and-swap, each its operation's last; two accesses. -/
theorem witness_AccessesReturn : ∀ k ∈ [onChip .shared 64 .load [.lane 0 3 7 0 false], onChip .stack 64 (.store [(1, true)]) [],
      onChip .shared 64 (.atom .add 0 5) [.scalar 1 9 0 false], onChip .shared 4092 (.cas 0 7) []], ∀ more ∈ [[], [onChip .shared 0 .load []]],
    let s := accessScene (k :: more)
    OneGroup s fun g _ t _ => t.frozen = false ∧ g.op? 3 = some (sceneOp (.access .relaxed (k :: more) []) none) ∧ g.ops.length = 1 ∧
      s.blocked t g [] { slice := 0, cls := 0, write := k.act.writes, spans := [s.span t 4 k.spot] } = false ∧ s.calm 1 = true ∧
      ∀ x ∈ g.slices, x.hold = .none := by
  intro k hk more hm
  simp only [List.mem_cons, List.not_mem_nil, or_false] at hk hm
  obtain rfl | rfl := hm <;> (obtain rfl | rfl | rfl | rfl := hk <;> exact oneGroup (by decide +kernel))

/-- A store that an older load of the same bytes holds back. -/
theorem witness_AccessesReturn_blocked :
    let s := (accessScene [onChip .shared 64 .load []]).updGroup 1 0 fun g =>
      { g with ops := g.ops ++ [{ sceneOp (.access .rel [onChip .shared 66 (.store [(1, false)]) []] []) none with id := 4, seq := 1, prior := [3] }] }
    OneGroup s fun g _ t _ => s.blocked t g [3] { slice := 0, cls := 0, write := true, rel := 1, spans := [s.span t 4 (.chip .shared 66)] } = true :=
  oneGroup (by decide +kernel)

theorem witness_WriteFrame : (laneScene (inShared 64)).mem.wf = true ∧ (laneScene (inShared 64)).ChipTidy ∧
    Is ((laneScene (inShared 64)).team? 1) (fun t => t.uid = 1) ∧ Is ((laneScene (inShared 64)).sliceAt 1 0 0) fun _ => True :=
  ⟨by decide +kernel, ⟨by decide +kernel, by decide +kernel⟩, is (by decide +kernel), is (by decide +kernel)⟩

/-- An older access with a common byte, one that acquires, one of a class that a release names, a fence of each kind between, and no older
access left. -/
theorem witness_AccessOrder :
    let load := sceneOp (.access .acq [onChip .shared 64 .load []] []) none
    let fence := fun (o : Order) => { sceneOp (.fence o 0x3F false) none with id := 4, prior := [3], returned := true }
    let w : Want := { slice := 0, cls := 0, write := true, rel := 1, spans := [{ room := .shared 1, lo := 67, len := 1 }] }
    let s := (single 0 0 id).updGroup 1 0 fun g => { g with ops := [load, fence .ar, { fence .rel with id := 5 }, { fence .acq with id := 6 }] }
    OneGroup s fun g _ t _ => t.pending g load = true ∧ w.cls ∈ load.job.classes ∧ spansMeet (s.opSpans t g load) w.spans = true ∧
      (load.job.classes.any fun c => w.rel.getLsbD c) = true ∧ load.job.stillReads = true ∧ load.returned = false ∧
      [g.op? 3, g.op? 4, g.op? 5, g.op? 6].map (·.map (·.prior)) = [some [], some [3], some [3], some [3]] ∧
      t.pending g { load with returned := true } = false := oneGroup (by decide +kernel)

/-- The clauses of the address checks where they meet: the top of the global window, and the ends of an aperture and of the part of
the spill stack that the windows take up. -/
theorem witness_AccessChecks :
    2 ^ 57 ≤ (0x0200000000000000 : DWord).toNat ∧ ((0x0200000000000000 : DWord).extractLsb' 48 16).toNat < 0xFFFD ∧
    (0x01FFFFFFFFFFFFFC : DWord).toNat < 2 ^ 57 ∧ (0x01FFFFFFFFFFFFFE : DWord).toNat % 4 ≠ 0 ∧
    0xFFFD ≤ ((inScratch 0).extractLsb' 48 16).toNat ∧ ((inStack 64).extractLsb' 48 16).toNat = 0xFFFE ∧
    4092 % 4 = 0 ∧ 4092 + 4 ≤ 4 * 1024 ∧ 4 * 1024 < 4096 + 4 ∧ 4094 % 4 ≠ 0 := by decide +kernel

theorem witness_AccessChecks_stack : Solo (lone fun x => { x with lo := 3 }) (fun g _ _ l => l.header.spill = 4096 ∧
    92 < 4 * g.width * (g.slices.map (·.lo)).foldl max 0 ∧ 4 * g.width * (g.slices.map (·.lo)).foldl max 0 ≤ 96) :=
  solo (by decide +kernel)

/-- A misaligned global address, a page that is not mapped, and a poisoned place. -/
theorem witness_AccessChecks_scalar :
    Solo (scalarScene 0x1042) (fun g x t _ => (match (scalarScene 0x1042).locate t g false .write (x.pair 8) 4 with
      | .fault f => !(scalarScene 0x1042).replayOk [(x, mkRec g x 0 f)]
      | _ => false) = true) ∧
    Solo (scalarScene 0x5000) (fun g x t _ => ∀ acc ∈ [Access.read, .write], (scalarScene 0x5000).locate t g false acc (x.pair 8) 4 = .park .page) ∧
    (let s := (scalarScene (inShared 64)).updTeam 1 fun t => { t with sharedPoison := [2] }
     Solo s fun g x t _ => s.locate t g false .write (x.pair 8) 4 = .place (.chip .shared 64) ∧ s.findsPoison t g (.chip .shared 64) 4 = true ∧
       s.replayOk [(x, mkRec g x 0 { cls := .poison, reason := 2, detail := BitVec.ofNat 64 ((x.pair 8).toNat / 32 * 32) })] = false) :=
  ⟨solo (by decide +kernel), solo (by decide +kernel), solo (by decide +kernel)⟩

/-! Waits. -/

/-- An operation of a path that slice 0 has issued. -/
def pathOp (id : Nat) (p : Path) : Op :=
  { sceneOp (.copy { out := false, dst := inShared 64, src := 0x1000, len := 64 }) (some p) with id := id }

/-- A fence with nothing before it, and one with a copy before it. -/
theorem witness_FencesAndPathWaits_fences :
    OneGroup (single 0 0 id) (fun g _ _ _ => g.priorTo 3 = []) ∧
    OneGroup ((single 0 0 id).updGroup 1 0 fun g => { g with ops := [pathOp 1 .copyIn], issued := 1 }) (fun g _ _ _ => g.priorTo 3 ≠ [] ∧
      ∀ p ∈ g.ops, p.returned = false ∧ p.job.classes ≠ [] ∧ p.after &&& 3 ≠ 0 ∧ p.seq < g.issued) :=
  ⟨oneGroup (by decide +kernel), oneGroup (by decide +kernel)⟩

/-- Two gathers are outstanding; s5 is 1, or 2; the oldest has faulted, or none has. -/
def waiting (n : Word) (faulted : List Op) : State :=
  (single 0 0 (·.setS 5 n)).updGroup 1 0 fun g => { g with ops := [pathOp 1 .gather, pathOp 2 .gather], faulted := faulted }

theorem witness_FencesAndPathWaits : ∀ p ∈ [((1 : Word), ([] : List Op)), (2, []), (2, [{ pathOp 7 .gather with fault := some { cls := .page } }])],
    OneGroup (waiting p.1 p.2) fun g _ _ _ => (waiting p.1 p.2).calm 1 = true ∧ (waiting p.1 p.2).unmarked [.s 5] [] = true ∧
      (waiting p.1 p.2).cleanScalars [.s 5] = true ∧ (waiting p.1 p.2).undeferred = true ∧
      (p.1 = 1 → ∀ m ∈ (waiting p.1 p.2).members, (m.2.getS 5).toNat < g.counter .gather) ∧
      (p.1 = 2 → ∀ m ∈ (waiting p.1 p.2).members, g.counter .gather ≤ (m.2.getS 5).toNat) ∧
      ((g.oldestFault .gather).bind (·.fault)).isSome = !p.2.isEmpty := by
  intro p hp
  simp only [List.mem_cons, List.not_mem_nil, or_false] at hp
  obtain rfl | rfl | rfl := hp <;> exact oneGroup (by decide +kernel)

def waitArgs (ty : ETy) (cc : Cmp) (c : SReg) : WaitvmArgs := ⟨ty, .relaxed, .grp, cc, 20, 8, 12, c⟩

theorem witness_ValueWaits : ∀ ty ∈ [ETy.i32, .n64], ∀ masked ∈ [true, false],
    (single 0 0 id).unmarked (sPair 8 ++ sRegs ty 12 ++ (if masked then sRegs ty 14 else [])) (sRegs ty 20) = true ∧
    (single 0 0 id).cleanScalars (sPair 8 ++ sRegs ty 12 ++ (if masked then sRegs ty 14 else [])) = true := by decide +kernel

/-- A group's slices at a value wait, at 0x1040; an older store there that is not performed makes them wait. -/
def valueScene (f : Slice → Slice) (ops : List Op) : State :=
  (mapped (allotted (single 0 0 fun x => f (setPair 8 0x1040 x)))).updGroup 1 0 fun g => { g with ops := ops }

theorem witness_ValueWaits_read : ∀ f, let s := valueScene (fun x => if x.num = 1 then { x with gang := 5 } else x) []
    OneGroup s (fun _ _ t _ => s.undeferred = true ∧ t.die.val < 4 ∧ s.begins = true) ∧ (waitArgs .i32 .eq 0).c = 0 ∧
    s.eachTurn f (fun s1 t g x => s1.locate t g false .read (x.pair 8) 4 = .place (spotIn s .read 4 g x) ∧
      s1.mayRead t g x 4 (spotIn s .read 4 g x) = true ∧
      ((s1.visit t.die.val (spotIn s .read 4 g x)).readSpot t g 4 (spotIn s .read 4 g x)).any (·.2) = false) :=
  fun f => ⟨oneGroup (by decide +kernel), rfl, oneTurn (by decide +kernel) f⟩

/-- A store to the place at which the gang waits. -/
def storeThere (s : State) : Op :=
  let k := match s.members with
    | (g, x) :: _ => spotIn s .read 4 g x
    | [] => .chip .nowhere 0
  sceneOp (.access .relaxed [{ spot := k, ty := .i32, act := .store [], dst := [] }] []) none

theorem witness_ValueWaits_order :
    let s := (valueScene id [storeThere (valueScene id [])]).updGroup 1 0 fun g => { g with issued := 1 }
    OneGroup s fun g _ t _ => s.begins = true ∧ ∀ m ∈ s.members, s.locate t g false .read (m.2.pair 8) 4 = .place (spotIn s .read 4 g m.2) ∧
      s.mayRead t g m.2 4 (spotIn s .read 4 g m.2) = false := oneGroup (by decide +kernel)

/-- One slice has met its condition, the other reads again. -/
theorem witness_ValueWaits_reread :
    let s := valueScene (fun x => if x.num = 1 then { x with sdone := true } else { x with hold := .value false (waitArgs .i32 .eq 0) }) []
    OneGroup s (fun g _ t _ => t.frozen = false ∧ g.drained = false ∧
      (∀ m ∈ s.members, m.2.dbg = .none ∧ (m.2.sdone = true ∧ m.2.hold = .none ∨ m.2.sdone = false ∧ m.2.hold = .value false (waitArgs .i32 .eq 0))) ∧
      (s.members.any fun m => !m.2.sdone) = true ∧ (s.members.filter fun m => !m.2.sdone).map (fun m => (m.1.num, m.2.num)) = [(0, 0)]) :=
  oneGroup (by decide +kernel)

theorem in_turn (s : State) (h : s.cur = { team := s.cur.team, gang := s.cur.gang }) :
    ∃ s0 : State, s = { s0 with cur := { team := s.cur.team, gang := s.cur.gang } } := ⟨s, by rw [← h]⟩

theorem witness_ValueWaits_turn : ∃ s0 : State,
    valueScene id [] = { s0 with cur := { team := (valueScene id []).cur.team, gang := (valueScene id []).cur.gang } } := in_turn (valueScene id []) (by decide +kernel)

/-- Two groups; group 0 is the gang, of one slice or of two; group 1 has arrived at barrier 3, or nobody has. -/
def atBarrier (b : Barrier) (f : Slice → Slice) (ops : List Op) : State :=
  let s := whole id
  { s with teams := [{ sceneTeam 8 2 fun g x => if g.num = 0 then f x else { x with gang := 5 } with barriers := (Vector.replicate 16 {} : Vector Barrier 16).set 3 b }] : State }.updGroup
    1 1 fun g => { g with ops := ops }

/-- BAR in four places: the group's other slice is elsewhere; the group arrives first; it completes the phase; it would, but for a copy. -/
theorem witness_Barriers : ∀ p ∈ [(({} : Barrier), fun (x : Slice) => if x.num = 1 then { x with gang := 6 } else x, ([] : List Op)),
      ({}, id, []), ({ count := 2, arrived := [1], timeout := 5 }, id, []),
      ({ count := 2, arrived := [1], timeout := 5 }, fun x => if x.num = 1 then { x with gang := 6, hold := .barrier ⟨0, 9, 1, 3⟩ } else x, [pathOp 1 .copyIn])],
    let s := atBarrier p.1 p.2.1 p.2.2
    OneGroup s fun g _ t _ => s.undeferred = true ∧ (∀ m ∈ s.members, m.2.hold = .none) ∧ s.unmarked [] [.s 20] = true ∧
      s.calmBut 1 (fun h => match h with | .barrier _ => true | _ => false) = true ∧ t.counted = true ∧
      1 + 1 ≤ t.groups.length ∧ (t.barriers[3].count = 0 ∨ t.barriers[3].count = 1 + 1) ∧ g.num ∉ t.barriers[3].arrived ∧
      (t.groups.any fun h => h.ops.any (t.pending h)) = !p.2.2.isEmpty ∧
      ∀ y ∈ g.live, y.inGang 0 = true ∨ y.hold = .none ∨ y.hold = .barrier ⟨0, 9, 1, 3⟩ := by
  intro p hp
  simp only [List.mem_cons, List.not_mem_nil, or_false] at hp
  obtain rfl | rfl | rfl | rfl := hp <;> exact oneGroup (by decide +kernel)

theorem witness_Barriers_timeout : let s := atBarrier { count := 2, arrived := [1], timeout := 5 } id []
    s.named = true ∧ Is (s.team? 1) fun t => t.barriers[3].count ≠ 0 ∧ t.barriers[3].timeout ≠ 0 ∧ t.frozen = false ∧ t.barriers[3].complete = false ∧
      ∀ g ∈ t.groups, g.drained = false ∧ ∀ x ∈ g.slices, x.dbg = .none := ⟨by decide +kernel, is (by decide +kernel)⟩

/-- A count of three for two groups, a count that differs from the phase's, and a slice at another barrier. -/
theorem witness_Barriers_faults : ∀ p ∈ [(({} : Barrier), fun (x : Slice) => x, 2), ({ count := 1 }, id, 1),
      ({}, fun x => if x.num = 1 then { x with gang := 6, hold := .barrier ⟨0, 9, 1, 4⟩ } else x, 1)],
    let s := atBarrier p.1 p.2.1 []
    OneGroup s fun g _ t _ => s.undeferred = true ∧ s.unmarked [] [.s 20] = true ∧ (t.groups.length < p.2.2 + 1 ∨
      (t.barriers[3].count ≠ 0 ∧ t.barriers[3].count ≠ p.2.2 + 1) ∨ ∃ y ∈ g.live, y.gang ≠ 0 ∧ y.hold = .barrier ⟨0, 9, 1, 4⟩) := by
  intro p hp
  simp only [List.mem_cons, List.not_mem_nil, or_false] at hp
  obtain rfl | rfl | rfl := hp <;> exact oneGroup (by decide +kernel)

theorem witness_WaitsEnd : (whole id).calm 1 = true ∧ ({ whole id with replays := [(0, 4096, 4096)] } : State).replays.find? (fun r =>
    r.1 == 0 && (decide (r.2.1 ≤ (0x1FFF : DWord).toNat) && decide ((0x1FFF : DWord).toNat < r.2.1 + r.2.2))) = some (0, 4096, 4096) := by
  decide +kernel

/-- No gang of the sub-core is ready, for all yield; and one is. -/
theorem witness_WaitsEnd_yield :
    (let s := whole fun x => { x with defer := 9 }
     Is (s.team? 1) fun t => (t.members 0).head?.isSome = true ∧ s.ready t.die t.core 0 = []) ∧
    Is ((whole id).team? 1) fun t => (whole id).ready t.die t.core 0 ≠ [] := ⟨is (by decide +kernel), is (by decide +kernel)⟩

/-- A turn falls due at the 64th issue, or was put off. -/
theorem witness_WaitsEnd_turn :
    (let s := (whole id).updSub 0 0 0 fun x => { x with n := 63 }
     ((s.sub 0 0 0).n + 1) % 64 = 0 ∧ s.ready 0 0 0 ≠ []) ∧
    (((whole id).updSub 0 0 0 fun x => { x with due := true }).sub 0 0 0).due = true ∧ ((whole id).sub 0 0 0).due = false := by decide +kernel

end Sys2Proof.Tests
end

