-- ==== Sys2Proof/Tests/WitnessesC.lean ====
section
/-! SUPPORT. Witnesses of the hypotheses of the statements about vats, clauses, packets, teams and launches. -/

set_option Elab.async false

namespace Sys2Proof.Tests

open Sys2Proof.Machine

/-! Vats. -/

theorem vatset_of {s : State} (h : (match s.team? 1 with
    | some t => t.groups.all fun g => (g.slices.filter (·.inGang 0)).getLast?.any fun z =>
        decide (((List.range 16).filter fun i => ((z.getS 5).extractLsb' 0 16).getLsbD i).length = 2) &&
        ((z.getS 5).extractLsb' 0 16).getLsbD g.num && decide (((z.getS 5).extractLsb' 0 16).toNat < 2 ^ t.groups.length)
    | none => false) = true) : Is (s.team? 1) fun t => ∀ g ∈ t.groups, Is (g.slices.filter (·.inGang 0)).getLast? fun z =>
      ((List.range 16).filter fun i => ((z.getS 5).extractLsb' 0 16).getLsbD i).length = 2 ∧
      ((z.getS 5).extractLsb' 0 16).getLsbD g.num = true ∧ ((z.getS 5).extractLsb' 0 16).toNat < 2 ^ t.groups.length := by
  cases ht : s.team? 1 with
  | none => simp [ht] at h
  | some t =>
    refine ⟨t, rfl, fun g hg => ?_⟩
    simp only [ht, List.all_eq_true] at h
    obtain ⟨z, hz, h⟩ := Option.any_eq_true _ _ |>.mp (h g hg)
    simp only [Bool.and_eq_true, decide_eq_true_eq] at h
    exact ⟨z, hz, h.1.1, h.1.2, h.2⟩

/-- Both groups of the gang name a vat of both; and a value that leaves out its own group. -/
theorem witness_VatsStart_vatset : let s := whole (·.setS 5 3)
    s.named = true ∧ s.unmarked [.s 5] [] = true ∧ s.cleanScalars [.s 5] = true ∧ Is (s.team? s.cur.team) (fun t =>
      ∀ g ∈ t.groups, Is (g.slices.filter (·.inGang s.cur.gang)).getLast? fun z =>
        ((List.range 16).filter fun i => ((z.getS 5).extractLsb' 0 16).getLsbD i).length = 2 ∧
        ((z.getS 5).extractLsb' 0 16).getLsbD g.num = true ∧ ((z.getS 5).extractLsb' 0 16).toNat < 2 ^ t.groups.length) ∧
    Solo (lone (·.setS 5 6)) (fun g x _ _ => ((x.getS 5).extractLsb' 0 16).getLsbD g.num = false) := by
  have h : (match (whole (·.setS 5 3)).team? 1 with
    | some t => t.groups.all fun g => (g.slices.filter (·.inGang 0)).getLast?.any fun z =>
        decide (((List.range 16).filter fun i => ((z.getS 5).extractLsb' 0 16).getLsbD i).length = 2) &&
        ((z.getS 5).extractLsb' 0 16).getLsbD g.num && decide (((z.getS 5).extractLsb' 0 16).toNat < 2 ^ t.groups.length)
    | none => false) = true := by decide +kernel
  refine ⟨by decide +kernel, by decide +kernel, by decide +kernel, ?_, solo (by decide +kernel)⟩
  exact vatset_of h

def mmaInstr : Instr := .mma ⟨always, true, 16, 20, 12, 20, 0⟩
def mmaOps : MatArgs := mmaArgs ⟨always, true, 16, 20, 12, 20, 0⟩ .mma

/-- The format block at s12, and a lane's accumulator row in v16 and v17. -/
def vatSlice (g : Group) (x : Slice) : Slice :=
  let y := setLanes 16 (inShared (4096 + 256 * (32 * g.num + 4 * x.num))) ((setPair 20 (inShared 0) x).setS 12 0x808)
  { y with em := if x.num = 0 then 1 else 0 }

/-- Two groups of 32 lanes in a vat; every slice but slice 0 of group 0 stands at the MMA. -/
def vatScene : State :=
  let t := sceneTeam 32 2 fun g x =>
    let y := vatSlice g x
    if g.num = 0 ∧ x.num = 0 then y else { y with hold := .vat mmaInstr, gang := 5 }
  { State.reset with teams := [{ t with groups := t.groups.map fun g => { g with vat := 3 } }], launches := [sceneLaunch 32 128 false],
                     nextUid := 2, nextId := 1, cur := { team := 1 } }

/-- The gang may issue the instruction. -/
def vatIssues (s : State) (i : Instr) (o : MatArgs) : Bool :=
  decide (matArgs i = some o) && s.undeferred && (s.calmBut s.cur.team fun h => match h with | .vat _ => true | _ => false) &&
  groupTest s fun g _ t _ => decide (t.die.val < 4) && g.vat != 0 && s.members.all fun m =>
    decide (m.2.ownInstr i = i) && (m.2.dependence g.budget (matReads t g m.2 o) (matWrites g o)).isNone

/-- The team once the gang waits at the instruction. -/
def waitsAt (s : State) (i : Instr) (o : MatArgs) : State :=
  match s.members, s.team? s.cur.team with
  | (g, _) :: _, some t =>
    let enter := fun (y : Slice) =>
      { (y.mark g.budget false y.sflag (matARegs t g o)).mark g.budget true y.rflag (matWrites g o) with hold := .vat i }
    s.updGroup s.cur.team g.num fun h =>
      { h with keepSeen := (t.ownerOf g).keep.isSome, slices := h.slices.map fun y => if y.inGang s.cur.gang then enter y else y }
  | _, _ => s

theorem witness_VatsStart : vatIssues vatScene mmaInstr mmaOps = true := by decide +kernel

/-- The same while slice 1 of group 1 has not come. -/
theorem witness_VatsStart_early :
    let s := vatScene.updSlice 1 1 1 fun x => { x with hold := .none }
    vatIssues s mmaInstr mmaOps = true ∧ Is ((waitsAt s mmaInstr mmaOps).team? 1) (fun t1 =>
      (t1.groups.all fun h => !h.arrived || ((t1.arrivalFault h).isNone && t1.groups.any fun k => h.vat.getLsbD k.num && !k.arrived)) = true) :=
  ⟨by decide +kernel, is (by decide +kernel)⟩

def vatFull : State := waitsAt vatScene mmaInstr mmaOps

theorem witness_VatsStart_full : ∃ t1, vatFull.team? 1 = some t1 ∧ t1.vatFull (t1.groups.filter fun g => (3 : BitVec 16).getLsbD g.num) 3 mmaInstr := by
  refine ⟨_, rfl, rfl, by decide +kernel, ⟨(4, 0xC1040800, 0x7F), by decide +kernel⟩, fun g hg hv => ?_⟩
  have := (by decide +kernel : ∀ g ∈ (vatFull.team? 1).elim [] Team.groups, (3 : BitVec 16).getLsbD g.num = true) g hg
  exact absurd (this.symm.trans hv) (by decide)

theorem witness_VatsStart_judged :
    (match vatFull.team? 1 with
     | some t1 => vatRoom t1.groups && match vatFull.judgeVat t1 t1.groups mmaOps with
       | .go j => j.members == [0, 1] && j.active == [0, 32]
       | _ => false
     | none => false) = true := by decide +kernel

/-- The format block names no type of the matrix units. -/
theorem witness_VatsStart_fault :
    let s := vatScene.updSlice 1 0 0 fun x => x.setS 12 0x80A
    vatIssues s mmaInstr mmaOps = true ∧ (match (waitsAt s mmaInstr mmaOps).team? 1 with
     | some t1 => vatRoom t1.groups && match (waitsAt s mmaInstr mmaOps).judgeVat t1 t1.groups mmaOps with
       | .fault f => f.info.reason == 1
       | _ => false
     | none => false) = true := by decide +kernel

/-- The same vat at an MMAS, and at an MMV whose stream has claimed no tile. -/
def massInstr : Instr := .mmas ⟨always, false, 16, 20, 12, 20, 0⟩
def mmvInstr : Instr := .mmv ⟨always, false, 30, 20, 12, 20, 0⟩

def otherVat (i : Instr) (fmt : Word) : State :=
  let stream : Stream := { addr := inShared 0, group := 1, op := 7, region := 0, scales := 0, first := 3, count := 2, stride := 128, claimed := 0,
                           ahead := [], delivered := 0, fault := none }
  vatScene.updTeam 1 fun t => { t with
    streams := [stream], groups := t.groups.map fun g => g.mapSlices fun x =>
      { setLanes 28 0x4444444444444444 (x.setS 12 fmt) with hold := if g.num = 0 ∧ x.num = 0 then .none else .vat i } }

/-- Slice 0's arrival completes the vat at an instruction, and the checks pass. -/
def vatGoes (s : State) (i : Instr) (o : MatArgs) : Bool :=
  vatIssues s i o && match (waitsAt s i o).team? 1 with
    | some t1 => vatRoom t1.groups && match (waitsAt s i o).judgeVat t1 t1.groups o with
      | .go j => j.kind == o.kind
      | _ => false
    | none => false

theorem witness_VatsStart_others : vatGoes (otherVat massInstr 0x808) massInstr (mmaArgs ⟨always, false, 16, 20, 12, 20, 0⟩ .mmas) = true ∧
    vatGoes (otherVat mmvInstr 0xE08) mmvInstr (mmvArgs ⟨always, false, 30, 20, 12, 20, 0⟩) = true := by decide +kernel

/-- Format blocks that fail each check first, and ones that fail none, on each generation; MMV's operands that overlap. -/
theorem witness_VatsStart_format :
    let o := mmaOps
    let v := mmvArgs ⟨always, false, 16, 20, 12, 20, 3⟩
    let f := fun (w : Word) => ({ w0 := w, locA := 0, locB := 0, w3 := 0 } : Fmtb)
    ([formatFault 6 2 o (f 0x80A), formatFault 6 2 o (f 0xC08), formatFault 6 2 o (f 0x100808), formatFault 6 2 o (f 0x1808),
      formatFault 6 2 v (f 0xE08)].map (·.map (·.reason))) = [some 1, some 2, some 3, some 4, some 7] ∧
    formatFault 6 2 o (f 0x808) = none ∧ (formatFault 5 2 o (f 0x908)).isSome = true := by decide +kernel

/-! Matrix sums. -/

theorem witness_MatrixSums : (15 : Nat) < 16 ∧ isMatType .f16 = true ∧ isMatType .mx4 = true ∧ isMatType .e4m3 = true ∧ (0 : Nat) / 64 = 0 ∧ 255 / 64 = 3 ∧
    (List.replicate 48 (0 : Byte)).length = 32 + 64 / ETy.q4.bits ∧ (List.replicate 36 (0 : Byte)).length = 32 + 64 / ETy.f16.bits := by decide +kernel

/-- Chunks with a NaN, with an infinity times zero, with infinities of both signs and of one, and finite ones whose sum is zero or not. -/
theorem witness_MatrixSums_chunks : let u := unpack .f16 false
    (u 0x7E00).isNan = true ∧ ((u 0x7C00).isInf = true ∧ (u 0).isZero = true) ∧ (u 0xFC00).neg = true ∧ (u 0x3C00).isFin = true ∧
    (u 0x3C00).rat * (u 0x3C00).rat + (u 0xBC00).rat * (u 0x3C00).rat = 0 ∧ (u 0x3C00).rat * (u 0x3C00).rat ≠ 0 ∧
    unpack .f32 false 0x7F800000 = .inf false ∧ unpack .f32 false 0xFF800000 = .inf true ∧ (unpack .f32 false 0x7FC00000).isNan = true := by
  decide +kernel

/-- Sparse positions in order (0, 1), and not in order (0, 0). -/
theorem witness_MatrixSums_sparse : let at' := fun (bs : List Byte) (p i : Nat) => fromLE (bs.drop 32) / 2 ^ (4 * p + 2 * i) % 4
    (∀ p, p < 8 → at' (List.replicate 32 0 ++ List.replicate 4 0x44) p 0 < at' (List.replicate 32 0 ++ List.replicate 4 0x44) p 1) ∧
    at' (List.replicate 36 0) 7 1 ≤ at' (List.replicate 36 0) 7 0 := by decide +kernel

/-- An operation of group 0 that a vat of both groups has started. -/
def matJob (kind : MatKind) : MatJob :=
  { kind := kind, members := [0, 1], typeA := .f16, typeB := .f16, blenA := 0, blenB := 0, scaleA := 0, scaleB := 0, addrB := inShared 0, cols := 8,
    active := [0, 32], rows := [], acc := [(0, inShared 1024), (32, inShared 2048)], dst := 30, bases := [(0, 0, 0), (1, 0, 0)], stream := inShared 0, tile := 1, producer := (1, 7), todo := if kind = .mmv then [] else [(0, 0), (1, 0)] }

/-- A vat's operation under way, and the stream of its tile as f makes it: five tiles, of which two are claimed and one is delivered. -/
def returning (kind : MatKind) (f : Stream → Stream) : State :=
  let op := { sceneOp (.matrix (matJob kind)) (if kind = .mmv then some .stream else none) with lateRead := true }
  let x : PressedTile := { len := 128, scales := [], codes := [] }
  let stream : Stream := { addr := inShared 0, group := 1, op := 7, region := 0x1000, scales := inShared 128, first := 0, count := 5, stride := 128,
                           claimed := 2, ahead := [x], delivered := 1, fault := none }
  let s : State := { whole id with launches := [sceneLaunch 8 128 false] }
  s.updTeam 1 fun t =>
    { t with streams := [f stream]
             groups := t.groups.map fun g => if g.num = 0 then { g with ops := [op] }
               else { g with ops := [{ sceneOp (.stream (inShared 0)) (some .stream) with id := 7 }, { op with job := .vatPart 0 3, path := none }] } }

def returnTest (kind : MatKind) (f : Stream → Stream) (p : Team → Group → Op → Bool) : Bool :=
  let s := returning kind f
  s.named && s.calm 1 && match s.team? 1 with
    | some t => match t.group? 0 with
      | some g => match g.op? 3 with
        | some o => o.job == .matrix (matJob kind) && !t.frozen && !o.returned && o.parked.isNone && (matJob kind).members.contains 0 &&
            (t.groups.all fun h => h.slices.all fun y => y.hold == .none) && p t g o
        | none => false
      | none => false
    | none => false

/-- The granule of an accumulator row may be written, and waits for an older operation of its bytes. -/
theorem witness_VatsReturn : returnTest .mma id (fun t g o =>
    let spans := (returning .mma id).chipSpan t (inShared 1024) 32 :: (returning .mma id).operandSpans t (matJob .mma)
    !(returning .mma id).blocked t g o.prior { slice := 0, cls := 3, write := true, spans := spans }) = true := by decide +kernel

/-- A tile that is due, the last one, one before its turn, one of an ended stream, and one of a stream that is gone. -/
theorem witness_VatsReturn_tiles :
    let bound := fun (t : Team) => t.streams.find? fun x => x.group == (1, 7).1 && x.op == (1, 7).2
    returnTest .mmv id (fun t _ _ => (bound t).any fun x => x.delivered == 1 && !x.ahead.isEmpty && x.delivered + 1 != x.count) = true ∧
    returnTest .mmv (fun x => { x with count := 2 }) (fun t _ _ => (bound t).any fun x => x.delivered + 1 == x.count) = true ∧
    returnTest .mmv (fun x => { x with delivered := 0 }) (fun t _ _ => (bound t).any fun x => x.fault.isNone && x.delivered != 1) = true ∧
    returnTest .mmv (fun x => { x with fault := some { cls := .page }, ahead := [] }) (fun t _ _ => (bound t).any fun x =>
      x.fault.isSome && decide (x.delivered + x.ahead.length ≤ 1)) = true ∧
    returnTest .mmv (fun x => { x with group := 0 }) (fun t _ _ => (bound t).isNone) = true := by decide +kernel

/-! Clauses. -/

/-- At a header, f has flag 3 and a mark under it. -/
def atHeader : State := whole fun x =>
  { x with inClause := false, offset := 0, f := 0x008, marks := [{ reg := .v 3, pending := true, flag := some 3 }] }

theorem witness_ClausesBegin : (∃ m ∈ atHeader.members, m.2.f &&& 0x008 ≠ 0) ∧ ∀ m ∈ atHeader.members, m.2.f &&& 0x010 = 0 ∧ 1 < (m.2.planeWords 0).length := by
  decide +kernel

/-- A header without an instruction. -/
theorem witness_ClausesBegin_empty : let s := whole fun x =>
      { x with inClause := false, offset := 0, cbuf := some { base := 0, planes := #v[[0xBF8007F8], [], [], []] } }
    (∀ m ∈ s.members, m.2.f &&& 0x010 = 0) ∧ ∃ m ∈ s.members, (m.2.planeWords 0).length ≤ 1 := by
  decide +kernel

/-- A page of text: two instructions after a header, then another header; the copy of plane 1 lies 64 bytes on. -/
def textPage : List Byte :=
  toLE 4 0xBF8007F8 ++ toLE 4 0x4082081C ++ toLE 4 4 ++ toLE 4 0x0084003C ++ toLE 4 0xBF8007F8 ++ toLE 4 0x0084003C ++ List.replicate 40 0 ++
  toLE 4 0xBF8007F8 ++ toLE 4 0x4082081C ++ toLE 4 5 ++ toLE 4 0x0084003C

/-- An object whose page 1 is that page, with a digest. -/
def textObject (d : BitVec 256) : CodeObject :=
  { uid := 0, partition := 0, addr := 0, sections := (fetchLaunch 0).sections, current := 0,
    versions := [{ num := 0, pages := [(1, textPage)], digests := [(1, d)] }] }

/-- Die d holds the translation of a page of partition 0 that may be read and fetched. -/
def fetchable (s : State) (d : Fin 14) (va : Nat) : State :=
  { keyed s with tlb := [{ die := d, partition := 0, va := va, bits := 12, leaf := leafAt 0x200000 1 0 - 4 + 8 }] }

/-- A team of one gang that waits for its text, which is not verified yet. -/
def unfetched (d : BitVec 256) : State :=
  { fetchable (single 0 0 fun x => { x with inClause := false, offset := 0, cbuf := none }) 0 0x1000 with objects := [textObject d] }

theorem witness_ClausesBegin_verify : ∃ l ob v, (unfetched (sha3 textPage)).launch? 0 = some l ∧ (unfetched (sha3 textPage)).code? l = some (ob, v) ∧
    (∀ x ∈ ((unfetched (sha3 textPage)).die 0).text, ¬ (x.object = ob.uid ∧ x.version = v.num ∧ x.page = 1)) ∧
    (unfetched (sha3 textPage)).waiters 0 0 1 ≠ [] ∧ (unfetched (sha3 textPage)).pageBytes 0 ob v 1 .fetch = .ok textPage ∧
    (unfetched (sha3 textPage)).pageDigest 0 ob v 1 = some (sha3 textPage) :=
  ⟨_, _, _, rfl, rfl, by decide +kernel, by decide +kernel, rfl, rfl⟩

theorem next_ne (x : BitVec 256) : x + 1 ≠ x := by bv_omega

/-- Another digest stands in the table. -/
theorem witness_ClausesBegin_fails : ∃ d l ob v, d ≠ sha3 textPage ∧ (unfetched d).launch? 0 = some l ∧ (unfetched d).code? l = some (ob, v) ∧
    (unfetched d).pageBytes 0 ob v 1 .fetch = .ok textPage ∧ (unfetched d).pageDigest 0 ob v 1 = some d ∧ (unfetched d).named = true ∧
    (unfetched d).control.getLsbD 16 = false ∧ l.first = none ∧
    (match (unfetched d).waiters 0 0 1 with
     | [(t, k, _, _)] => (unfetched d).calm t.uid && t.partition == 0 && t.groups.any fun g =>
         (t.members k).all (fun m => m.1 == g && m.2.deferred == 0) && g.laneOps.isEmpty && !g.trapped && !g.ended &&
         g.num == 0 && g.slices.all fun y => y.dbg == .none && decide (y.num < 255)
     | _ => false) = true :=
  ⟨sha3 textPage + 1, _, _, _, next_ne _, rfl, rfl, rfl, rfl, by decide +kernel, by decide +kernel, rfl, by decide +kernel⟩

/-- The same with the page verified, and lane 1 of each slice in plane 1. -/
def fetched : State :=
  let s := single 0 0 fun x => { x with inClause := false, offset := 0, cbuf := none, l1 := { x.l1 with pl := 1 } }
  let l := sceneLaunch 8 4 false
  let p : TextPage := { object := 0, version := 0, page := 1, bytes := textPage }
  State.updDie { s with launches := [{ l with header := { l.header with planeMask := 3, stride := 6 } }] } 0 fun d => { d with text := [p] }

theorem witness_ClausesBegin_fill :
    let is : List (Word × Option Word) := [(0x4082081C, some 4), (0x0084003C, none)]
    let cs : Fin 4 → List Word := fun p => if p = 0 then 0xBF8007F8 :: is.flatMap (fun i => i.1 :: i.2.toList)
      else if p = 1 then [0xBF8007F8, 0x4082081C, 5, 0x0084003C] else []
    is.all (fun i => isHeader i.1 == false && i.1.getLsbD 30 == i.2.isSome) = true ∧
    (match fetched.team? 1, fetched.launch? 0 with
     | some t, some l => match (t.members 0).head? with
       | some m =>
         let word := fun (k : Nat) => fetched.textWord t.die.val l k
         let occupied := fun (p : Fin 4) => p == 0 || (l.header.planeMask.testBit p.val &&
           (t.members 0).any fun m => (List.finRange 4).any fun j => m.2.em.getLsbD j.val && (m.2.lane j).pl == p)
         let at' := fun (p : Fin 4) => m.2.offset.toNat + (if p = 0 then 0 else p.val * 2 ^ l.header.stride)
         !t.frozen && m.2.cbuf.isNone && (List.finRange 4).all (fun p => occupied p == decide (p.val < 2)) &&
         (List.finRange 4).all (fun p => !occupied p || ((cs p).length == 4 && decide (at' p + 16 ≤ (l.text (Config.generation t.die.val)).2.1) &&
           (List.range 4).all fun i => word (at' p + 4 * i) == (cs p)[i]?)) && word (at' 0 + 16) == some 0xBF8007F8
       | none => false
     | _, _ => false) = true ∧ isHeader 0xBF8007F8 = true := by
  decide +kernel

/-! Packets. -/

/-- A launch packet for queue 3 and an install packet for queue 12. -/
def launchBytes : List Byte :=
  toLE 2 1 ++ [3, 2] ++ toLE 4 0x77 ++ toLE 8 0x10000 ++ toLE 4 0 ++ toLE 4 3 ++ toLE 2 2 ++ toLE 2 1 ++ toLE 2 8 ++ [0, 0] ++ List.replicate 32 0 ++
  (List.range 64).map (BitVec.ofNat 8)

def installBytes : List Byte := toLE 2 2 ++ [12, 0] ++ toLE 4 0x99 ++ toLE 8 0x1000 ++ List.replicate 112 0

/-- Entry 7 lets source 0x1234 use queues 3 and 12 of partition 0 and install. -/
def entry7 : DWord := BitVec.ofNat 64 (2 ^ 63 + 2 ^ 62 + 2 ^ 35 + 2 ^ 44 + 0x1234)

def gated : State := { keyed State.reset with acl := State.reset.acl.set 7 entry7 }

theorem witness_Messages : launchBytes.length = 128 ∧ installBytes.length = 128 ∧ (launchBytes.drop 1).length ≠ 128 ∧
    (gated.part 0).descriptor.getLsbD 63 = true ∧ entry7.getLsbD (32 + 3) = true ∧ entry7.getLsbD (32 + 12) = true ∧ entry7.getLsbD 62 = true ∧
    entry7.toNat / 2 ^ 52 % 16 = 0 ∧ (gated.part 0).resetting = false ∧ (atV (gated.part 0).queues 3 []).length < Config.queueDepth := by
  decide +kernel

/-- A queue that the entry does not give; a partition that is being reset; a queue that is full. -/
theorem witness_Messages_rejected : let b5 := launchBytes.set 2 5
    b5.length = 128 ∧ entry7.getLsbD (32 + (b5.getD 2 0).toNat) = false ∧ (gated.part 0).events.length < Config.eventDepth ∧
    (let s := gated.updPart 0 fun p => { p with resetting := true }
     (s.part 0).descriptor.getLsbD 63 = true ∧ (s.part 0).resetting = true ∧ (s.part 0).events.length < Config.eventDepth) ∧
    (let s := gated.updPart 0 fun p => { p with queues := p.queues.set 3 (List.replicate Config.queueDepth { bytes := [], install := false, aclM := false }) }
     (s.part 0).descriptor.getLsbD 63 = true ∧ (s.part 0).resetting = false ∧ Config.queueDepth ≤ (atV (s.part 0).queues 3 []).length) := by
  decide +kernel

/-- The entry's partition is not enabled. -/
theorem witness_Messages_disabled : let s : State := { State.reset with acl := State.reset.acl.set 7 entry7 }
    s.acl.toList.find? (fun e => e.getLsbD 63 && decide (e.toNat % 2 ^ 32 = (0x1234 : Word).toNat)) = some entry7 ∧
    (s.part (entry7.toNat / 2 ^ 52 % 16)).descriptor.getLsbD 63 = false := by decide +kernel

theorem witness_Messages_unknown : (gated.acl.toList.all fun e => !e.getLsbD 63 || e.toNat % 2 ^ 32 != (0x1235 : Word).toNat) = true := by
  decide +kernel

theorem witness_Messages_known :
    gated.acl.toList.find? (fun e => e.getLsbD 63 && decide (e.toNat % 2 ^ 32 = (0x1234 : Word).toNat)) = some entry7 := by decide +kernel

theorem witness_Messages_bulk : ({ mapped State.reset with acl := State.reset.acl.set 7 entry7 } : State).usable 0x1234 = some (entry7, 0) ∧
    0x0FF0 + 32 ≤ 2 ^ 57 ∧ Ok (({ mapped State.reset with acl := State.reset.acl.set 7 entry7 } : State).writeGlobal 12 0 0x0FF0
      (List.replicate 32 (1, false))) (fun _ => True) := ⟨by decide +kernel, by decide, okay (by decide +kernel)⟩

def someEvent : Outgoing :=
  { dest := 0x1234, session := none, event := { code := 1, partition := 0, reason := 0, tag := 0, detail := 0, counter := 0, lost := 0 } }

theorem witness_Messages_events : ({ State.reset with answers := [someEvent] } : State).answers = someEvent :: [] ∧
    ((State.reset.updPart 2 fun p => { p with events := [someEvent, someEvent] }).part 2).events = someEvent :: [someEvent] := by decide +kernel

/-- A page whose first kernel is header, and the object that begins with it. -/
def headerBytes0 : List Byte :=
  toLE 2 1 ++ toLE 2 0 ++ toLE 4 0 ++ toLE 4 0 ++ toLE 4 0xFFFFFFFF ++ toLE 4 64 ++ toLE 4 0 ++ [0, 1, 2, 4, 8, 1, 1, 0, 60, 3] ++ toLE 2 4 ++
  toLE 4 0 ++ toLE 4 0 ++ toLE 4 0 ++ toLE 2 8 ++ toLE 2 0 ++ List.replicate 44 0

def headerPage : List Byte := List.replicate 64 0 ++ headerBytes0

def launchObject : CodeObject :=
  { uid := 0, partition := 0, addr := 0x10000, sections := (fetchLaunch 0).sections, current := 5,
    versions := [{ num := 5, pages := [(0, headerPage)], digests := [(0, sha3 headerPage)] }] }

/-- A page whose digest verifies. -/
theorem headerBytes_one {s : State} {d pg : Nat} {o : CodeObject} {v : Version} {bs : List Byte} (hb : s.pageBytes d o v pg .fetch = .ok bs)
    (hd : s.pageDigest d o v pg = some (sha3 bs)) : s.headerBytes d o v [pg] = .ok bs := by
  simp [State.headerBytes, State.textPages, hb, hd]

/-- A packet of a launch whose header lies in one page that verifies. -/
theorem judgePacket_one {s : State} {d pg : Nat} {p : Fin 16} {b bs : List Byte} {o : CodeObject} {v : Version} (hf : launchFields b false = true)
    (ho : s.object? p.val (BitVec.ofNat 64 (leAt b 8 8)) = some o) (hk : leAt b 0x10 4 < o.sections.kernels) (hv : o.version? o.current = some v)
    (hp : headerPages o.sections (leAt b 0x10 4) = [pg]) (hb : s.pageBytes d o v pg .fetch = .ok bs)
    (hd : s.pageDigest d o v pg = some (sha3 bs))
    (hr : headerReason ((bs.drop ((o.sections.kernelTable + 96 * leAt b 0x10 4) % 4096)).take 96) o.sections (leAt b 0x10 4) (leAt b 0x1C 2) = none) :
    s.judgePacket d p false b = .ok (o, v, headerOf ((bs.drop ((o.sections.kernelTable + 96 * leAt b 0x10 4) % 4096)).take 96)) := by
  simp [State.judgePacket, hf, ho, Nat.not_le.mpr hk, hv, hp, headerBytes_one hb hd, hr]

def launchEntry : Queued := { bytes := launchBytes, install := false, aclM := true }

/-- The machine with a packet at the head of queue 3. -/
def queuedAs (x : Queued) : State :=
  { (fetchable State.reset 12 0x10000).updPart 0 fun p => { p with queues := p.queues.set 3 [x], launchNum := 9 } with
    objects := [launchObject], control := 1 }

def queued : State := queuedAs launchEntry

theorem queued_judged (s : State) (h : s.objects = queued.objects)
    (hb : s.pageBytes 12 launchObject { num := 5, pages := [(0, headerPage)], digests := [(0, sha3 headerPage)] } 0 .fetch = .ok headerPage) :
    s.judgePacket 12 0 false launchBytes =
    .ok (launchObject, { num := 5, pages := [(0, headerPage)], digests := [(0, sha3 headerPage)] },
      headerOf ((headerPage.drop ((launchObject.sections.kernelTable + 96 * leAt launchBytes 0x10 4) % 4096)).take 96)) := by
  have ho : s.object? (0 : Fin 16).val (BitVec.ofNat 64 (leAt launchBytes 8 8)) = some launchObject := by
    unfold State.object?; rw [h]; rfl
  exact judgePacket_one (by decide +kernel) ho (by decide +kernel) rfl (pg := 0) (by decide +kernel) hb rfl (by decide +kernel)

/-- The only head of partition 0, whose turn it is. -/
theorem nextHead_one {s : State} {u : Fin 2} {h : Head} (hs : atV s.served u.val 0 = 0) (hh : s.heads u 0 = [h])
    (hr : s.headReady u 0 h = true) : s.nextHead u = some (0, h) := by
  unfold State.nextHead
  rw [show List.range 16 = 0 :: (List.range 15).map (· + 1) from by decide]
  simp [hs, hh, hr, bestHead]

theorem queued_ready : queued.headReady 0 0 (.queue 3 launchEntry) = true := by
  have hj : queued.judgePacket (12 + (0 : Fin 2).val) 0 (Head.isCont (.queue 3 launchEntry)) (Head.bytes (.queue 3 launchEntry)) = _ :=
    queued_judged queued rfl rfl
  unfold State.headReady
  rw [hj]
  decide +kernel

theorem witness_PacketsDispatch : queued.nextHead 0 = some (0, .queue 3 launchEntry) ∧
    (∃ ob v h, launchEntry.install = false ∧ (queued.takeHead 0 0 (.queue 3 launchEntry)).judgePacket (12 + (0 : Fin 2).val) 0 false launchEntry.bytes =
      .ok (ob, v, h)) ∧ (queued.part 0).events.length < Config.eventDepth :=
  ⟨nextHead_one rfl (by decide +kernel) queued_ready, ⟨_, _, _, rfl, queued_judged _ rfl rfl⟩, by decide +kernel⟩

/-- A packet with a reserved byte that is not zero. -/
theorem witness_PacketsDispatch_error : let x : Queued := { launchEntry with bytes := launchBytes.set 0x20 1 }
    (queuedAs x).nextHead 0 = some (0, .queue 3 x) ∧
    ((queuedAs x).takeHead 0 0 (.queue 3 x)).judgePacket 12 0 false x.bytes = .error 0x09 :=
  ⟨by decide +kernel, by rfl⟩

/-- An object of one kernel without text, stored at 0x1000 of the window. -/
def objectBytes : List Byte :=
  toLE 4 0x4E5A4C5A ++ toLE 2 1 ++ toLE 2 0 ++ toLE 4 4096 ++ toLE 4 1 ++ toLE 4 64 ++ toLE 4 0 ++ toLE 4 0 ++ toLE 4 0 ++ toLE 4 0 ++ toLE 4 0 ++
  toLE 4 0 ++ toLE 4 4064 ++ toLE 4 0 ++ toLE 4 0 ++ toLE 8 0

def installEntry : Queued := { bytes := installBytes, install := true, aclM := true }

/-- The machine with an install at the head of queue 12, another object at its address, and a launch bound to that. -/
def toInstallAs (x : Queued) : State :=
  let s := (stored (mapped State.reset) 0x1000 objectBytes).updPart 0 fun p => { p with queues := p.queues.set 12 [x] }
  { s with objects := [{ textObject 0 with addr := 0x1000 }], launches := [fetchLaunch 7], nextId := 8 }

def toInstall : State := toInstallAs installEntry

theorem witness_PacketsDispatch_install : toInstall.nextHead 1 = some (0, .queue 12 installEntry) ∧ installFields installBytes = true ∧
    Ok ((toInstall.takeHead 1 0 (.queue 12 installEntry)).judgeInstall 13 0 (fromLE ((installBytes.drop 8).take 8))) (fun _ => True) ∧
    (∀ l ∈ toInstall.launches, l.code < toInstall.nextId) ∧ ((toInstall.launch? 7).bind toInstall.code?).isSome = true :=
  ⟨by decide +kernel, by decide +kernel, okay (by decide +kernel), by decide +kernel, by decide +kernel⟩

/-- A field that must be zero is not; no object stands at the address. -/
theorem witness_PacketsDispatch_refused : let x : Queued := { installEntry with bytes := installBytes.set 0x10 1 }
    let y : Queued := { installEntry with bytes := installBytes.set 9 0x70 }
    ((toInstallAs x).nextHead 1 = some (0, .queue 12 x) ∧ installFields x.bytes = false) ∧
    (toInstallAs y).nextHead 1 = some (0, .queue 12 y) ∧ installFields y.bytes = true ∧
    (match ((toInstallAs y).takeHead 1 0 (.queue 12 y)).judgeInstall 13 0 (fromLE ((y.bytes.drop 8).take 8)) with
     | .error r => r == 0x24
     | .ok _ => false) = true := by
  decide +kernel

/-! Teams and launches. -/

/-- A launch with one of six teams left, of one producer and two consumers. -/
def toPlace : Launch :=
  { fetchLaunch 0 with header := { (fetchLaunch 0).header with producers := 1, consumers := 2, budgetP := 64, tokens := 2 }, dimX := 3, dimY := 2, placed := 5 }

theorem witness_TeamsArePlaced : ∀ d ∈ [(0 : Fin 8), 5],
    let s : State := { keyed State.reset with launches := [toPlace] }
    s.launch? 0 = some toPlace ∧ toPlace.placed < toPlace.dimX * toPlace.dimY * toPlace.dimZ ∧ s.coreOpen d 100 = true ∧
    s.tokensFit 0 toPlace.header.tokens = true ∧ (s.coreFits toPlace d 100).isSome = true ∧
    (s.nextPlace toPlace.unit d 100).any (·.id == toPlace.id) = true ∧ toPlace.die = none ∧ toPlace.header.width = 8 ∧
    toPlace.header.producers ≤ 16 ∧ toPlace.header.consumers ≤ 16 := by decide +kernel

/-- Group 0 has nothing left to do; group 1 has ended, or has not. -/
def done (other : Bool) : State :=
  (whole fun x => { x with exited := true }).updTeam 1 fun t =>
    { t.mapGroups (fun g => { g with ended := other && g.num == 1 }) with shared := { cells := [(0, 1)] } }

theorem witness_WorkEnds_group : ∀ b ∈ [true, false], (done b).named = true ∧
    (match (done b).team? 1 with
     | some t => match t.group? 0 with
       | some g => !t.frozen && g.started && !g.ended && g.slices.all (·.exited) && g.ops.isEmpty && g.faulted.isEmpty &&
           (t.groups.all fun h => h.num == g.num || h.ended) == b && ((done b).launch? t.launch).isSome && !t.shared.cells.isEmpty
       | none => false
     | none => false) = true := by decide +kernel

/-- The same after a trap, and with a late fault of an operation. -/
theorem witness_WorkEnds_faults : let o := { sceneOp (.stream 0) none with returned := true, fault := some { cls := .page } }
    let s := (done true).updGroup 1 0 fun g => { g with faulted := [o, { o with id := 4 }] }
    s.named = true ∧ (match s.team? 1 with
     | some t => match t.group? 0 with
       | some g => !g.trapped && g.faulted == [o, { o with id := 4 }] && decide (o.id < 4) && ((s.launch? t.launch).any fun l => l.first.isNone) &&
           (({ g with trapped := true } : Group).trapped)
       | none => false
     | none => false) = true := by decide +kernel

/-- A launch that is finished, whose curd records stand on die 3. -/
def finished (failed : Bool) (b : Option (List Byte)) : Launch :=
  { fetchLaunch 7 with placed := 1, exited := 1, failed := failed, first := if failed then some (5, 77) else none, registered := b }

theorem witness_WorkEnds_launch : ∀ b ∈ [(true, none), (false, none), (false, some launchBytes)],
    let l := finished b.1 b.2
    let s : State := State.updDie { State.reset with launches := [l] } 3 fun d => { d with curd := [{ launch := 7, key := 1, payload := #v[1, 2, 3, 4] }] }
    s.launch? 7 = some l ∧ l.placed = l.dimX * l.dimY * l.dimZ ∧ l.exited = l.placed ∧ (∀ x ∈ s.landings, x.launch ≠ 7) ∧ l.dieReset = false ∧
    (s.part l.partition.val).events.length < Config.eventDepth ∧ l.failed = b.1 ∧ l.registered = b.2 ∧ (l.failed = true → l.first = some (5, 77)) := by
  decide +kernel

end Sys2Proof.Tests
end

