-- ==== Sys2Proof/Tests/WitnessesE.lean ====
section
/-! SUPPORT. Witnesses of the hypotheses of the statements about the patch and migration engines, collapses and soft errors. -/

set_option Elab.async false

namespace Sys2Proof.Tests

open Sys2Proof.Machine

/-! Requests to engines. -/

/-- The only gang of a privileged launch; s2 holds the address of a descriptor. -/
def requestScene : State := mapped (lonePrivileged (setPair 2 0x40))

/-- The slice's pair s2 addresses n bytes that are mapped and not poisoned. -/
def readableAt (n : Nat) (s : State) (t : Team) (x : Slice) : Bool :=
  (x.pair 2).toNat % n == 0 && decide ((x.pair 2).toNat < 2 ^ 57) &&
  (s.readGlobal t.die.val t.partition.val .read (x.pair 2).toNat n).toOption.any fun bs => bs.all fun b => !b.2

theorem readable_of {n : Nat} {s : State} {t : Team} {x : Slice} (h : readableAt n s t x = true) :
    (x.pair 2).toNat % n = 0 ∧ (x.pair 2).toNat < 2 ^ 57 ∧
    ∃ bs, s.readGlobal t.die.val t.partition.val .read (x.pair 2).toNat n = .ok bs ∧ ∀ b ∈ bs, b.2 = false := by
  simp only [readableAt, Bool.and_eq_true, beq_iff_eq, decide_eq_true_eq] at h
  obtain ⟨⟨h1, h2⟩, h3⟩ := h
  cases he : s.readGlobal t.die.val t.partition.val .read (x.pair 2).toNat n with
  | error _ => rw [he] at h3; simp [Except.toOption] at h3
  | ok bs =>
    rw [he] at h3
    simp only [Except.toOption, Option.any_some, List.all_eq_true, Bool.not_eq_true'] at h3
    exact ⟨h1, h2, bs, rfl, h3⟩

theorem witness_EngineRequests : requestScene.named = true ∧ requestScene.begins = true ∧ requestScene.unmarked (sPair 2) [] = true ∧
    requestScene.cleanScalars (sPair 2) = true ∧
    (match requestScene.team? 1 with
     | some t => (requestScene.launch? t.launch).any (·.privileged)
     | none => false) = true := by decide +kernel

/-- The turn of the only slice, whatever the request does. -/
theorem witness_EngineRequests_turns : ∀ n ∈ [32, 64], ∀ f, requestScene.eachTurn f fun s t g x => t.orderFree g x none = true ∧
    (x.pair 2).toNat % n = 0 ∧ (x.pair 2).toNat < 2 ^ 57 ∧
    ∃ bs, s.readGlobal t.die.val t.partition.val .read (x.pair 2).toNat n = .ok bs ∧ ∀ b ∈ bs, b.2 = false := by
  intro n hn f ms m rest hm t g x ht hg hx
  have h : ∀ n ∈ [32, 64], turnTest requestScene (fun t g x => decide (t.orderFree g x none = true ∧ readableAt n requestScene t x = true)) = true := by
    decide +kernel
  have := oneTurn (s := requestScene) (P := fun s t g x => t.orderFree g x none = true ∧ readableAt n requestScene t x = true) (h n hn) f ms m rest hm t g x ht hg hx
  cases ms with
  | cons a ms =>
    have h1 : requestScene.memberNums = [(0, 0)] := by decide +kernel
    rw [h1] at hm
    cases ms <;> simp at hm
  | nil => exact ⟨this.1, readable_of this.2⟩

theorem witness_EngineRequests_tclk : Ok (requestScene.readGlobal 0 0 .read 0x40 64) fun bs =>
    fromLE (((bs.map (·.1)).drop 16).take 8) % 32 = 0 ∧ fromLE (((bs.map (·.1)).drop 16).take 8) < 2 ^ 57 ∧
    fromLE (((bs.map (·.1)).drop 2).take 1) < 8 := okay (by decide +kernel)

/-- An older store of the group is still to be performed. -/
theorem witness_EngineRequests_waits : let s0 := withOp requestScene (.access .relaxed [⟨.chip .shared 0, .n32, .store [(1, false)], [], false⟩] []) none
    let s := s0.updGroup 1 0 fun g => { g with issued := 1 }
    s.named = true ∧ s.begins = true ∧ Solo s fun g x t _ => t.orderFree g x none = false ∧ readableAt 32 s t x = true ∧ readableAt 64 s t x = true :=
  ⟨by decide +kernel, by decide +kernel, solo (by decide +kernel)⟩

/-- An object whose pages the patch engine has given frames, and a request for four bytes of one of them. -/
def patchScene (page flags : Nat) : State :=
  let frame := List.replicate 4096 (0 : Byte)
  let v : Version := { num := 0, pages := [(0, frame), (page, frame)], digests := [] }
  let x := (fetchLaunch 0).sections
  { mapped State.reset with
    objects := [{ uid := 0, partition := 0, addr := 0, sections := { x with text5 := 4096 * page }, current := 0, versions := [v] }]
    launches := [fetchLaunch 0]
    patches := [{ partition := 0, die := 0, desc := 0x40, object := 0, offset := 4096 * page, length := 4, source := 0x100, flags := flags, reserved := 0 }] }

/-- The request passes its checks, its pages can be read, and p says where an in-place patch of them stops. -/
def patchTest (s : State) (p : Option (Nat × WalkFault) → Bool) : Bool := match s.patches with
  | r :: _ => match s.judgePatch r with
    | .ok (ob, new) => match ob.version? ob.current with
      | some v => if r.flags % 2 = 0 then
          (s.newPages ob v ((r.offset, new) :: versionFields ob.sections (ob.current + 1))
            (pagesOf r.offset r.length ++ pagesOf ob.sections.kernelTable (96 * ob.sections.kernels)).eraseDups).isSome
        else (s.newPages ob v [(r.offset, new)] (pagesOf r.offset r.length)).isSome && p (s.patchStop ob (pagesOf r.offset r.length))
      | none => false
    | .error _ => false
  | [] => false

theorem witness_EngineRequests_versioned : patchTest (patchScene 1 0) (fun _ => true) = true ∧
    (patchScene 1 0).launches.all (fun l => ((patchScene 1 0).code? l).isSome) = true := by decide +kernel

/-- Nothing stops it; the page is replicated; it is migrating; it may not be written. -/
theorem witness_EngineRequests_inPlace : patchTest (patchScene 1 1) Option.isNone = true ∧
    patchTest ((patchScene 3 1).putEntry 0 0x14018 (leafAt 0x206000 2 0)) (fun x => x.any fun y => y.2 == .collapse) = true ∧
    patchTest ((patchScene 1 1).putEntry 0 0x14008 (leafAt 0x205000 1 2)) (fun x => x.any fun y => y.2 == .parked) = true ∧
    patchTest ((patchScene 1 1).putEntry 0 0x14008 (leafAt 0x205000 1 0 - 4)) (fun x => x.any fun y => y.2 != .collapse && y.2 != .parked) = true := by
  decide +kernel

/-- A request that names no object. -/
theorem witness_EngineRequests_error : ∀ n ∈ [0, 1], let s := { patchScene 1 n with objects := [] }
    (match s.patches with
     | r :: _ => r.flags % 2 == n && match s.judgePatch r with
       | .error e => e == 0x41
       | .ok _ => false
     | [] => false) = true := by decide +kernel

theorem witness_EngineRequests_outlives : ({ base := 0, planes := Vector.replicate 4 [], old := #v[[], [1], [], []] } : ClauseBuf).old[(1 : Fin 4)] ≠ [] := by
  decide

/-! Pages. -/

def collapseScene : State := { mapped State.reset with collapsing := [(0, 0x3000)] }

theorem witness_PagesChange_collapse : (0, 0x3000) ∈ collapseScene.collapsing ∧
    Ok (collapseScene.leafFor 0 0x3000) (fun r => ptePlace r.2.2 = 2 ∧ pteState r.2.2 = 1) ∧ (collapseScene.part 0).traceRing.toNat % 32 = 0 :=
  ⟨by decide +kernel, okay (by decide +kernel), by decide +kernel⟩

/-- A command for the page at 0x1000. -/
def migration (op target : Nat) : MigCmd :=
  { op := op, partition := 0, target := target, permissions := 1, start := 0x1000, length := 4096, dest := 0x300000, completion := 0x40, reserved := 0 }

def migrationScene (c : MigCmd) : State := let s := mapped State.reset
  { s with migrations := s.migrations.set 0 [c] }

theorem witness_PagesChange_migrations : ∀ c ∈ [migration 1 1, migration 2 1, migration 3 2],
    (migrationScene c).migrations[(0 : Fin 2)] = [c] ∧ (migrationScene c).collapsingIn c = false ∧ c.bad = false ∧ c.length = 4096 ∧
    c.partition = (0 : Fin 16).val ∧ (let s0 := { migrationScene c with migrations := (migrationScene c).migrations.set 0 [] }
    match s0.leafFor 0 0x1000 with
     | .ok (level, _, e) => s0.judgeLeaf 0 .agent level e == none && leafBits level e == 12 &&
         decide (c.dest.toNat + 4096 ≤ s0.tierBound (c.leaf c.dest.toNat e))
     | .error _ => false) = true := by decide +kernel

theorem witness_PagesChange_errors : 32 * 7 < State.reset.memoryOf 0 ∧ 32 * 7 < State.reset.memoryOf 8 := by decide +kernel

end Sys2Proof.Tests
end

