-- ==== Sys2Proof/Tests/WitnessesF.lean ====
section
/-! SUPPORT. Witnesses of the hypotheses of the statements about tiles: saves, restores, scan tests and swaps. -/

set_option Elab.async false

namespace Sys2Proof.Tests

open Sys2Proof.Machine

/-! Tiles. -/

def tileCommand (op : Nat) : TileCmd :=
  { partition := 0, fromDie := 0, fromCore := 3, op := op, abort := 2, image := 0x200000, completion := 0x40, duration := 5,
    expected := 0, reservedOk := true }

/-- Core 0 of die 0 with a command, in a state. -/
def ordered (op : Nat) (st : TileState) (s : State) : State := s.updTile 0 0 fun y => { y with state := st, cmds := [tileCommand op] }

theorem witness_TilesSave_stop : ((ordered 1 .open (large (whole id))).tile 0 0).cmds = [tileCommand 1] ∧
    (ordered 1 .open (large (whole id))).cmdStatus 0 0 (tileCommand 1) = none ∧ ((ordered 1 .open (large (whole id))).tile 0 0).state = .open := by
  decide +kernel

theorem witness_TilesSave_held : ((ordered 1 .held State.reset).tile 0 0).cmds = [tileCommand 1] ∧
    (ordered 1 .held State.reset).cmdStatus 0 0 (tileCommand 1) = none ∧ ((ordered 1 .held State.reset).tile 0 0).state = .held := by decide +kernel

def noSave : Save := { outstanding := 0, whey := [], lost := 0, stale := 0, counter := 0 }

/-- A load of group 0 whose request has gone to die 8, in a tile whose clock has stopped; a response for a team that has gone. -/
def savingScene : State :=
  let at' : Target := { va := 0x200000, die := 8, off := 0x400000, key := some 2, left := 4096, leaf := 0, bits := 21 }
  let op := { sceneOp (.access .relaxed [⟨.main at', .n32, .load, [.scalar 0 4 0 false], true⟩] []) none with rflag := none }
  let s := (ordered 1 (.saving { noSave with outstanding := 1 }) (large (whole id))).updTeam 1 fun t =>
    { t with frozen := true, groups := t.groups.map fun g => if g.num = 0 then { g with ops := [op] } else g }
  { s with orphans := [{ team := 7, group := 0, op := 2, partition := 0, epoch := 0, die := 0, core := 0, inc := 0 }] }

theorem witness_TilesSave_catch : (savingScene.tile 0 0).cmds = [tileCommand 1] ∧ savingScene.cmdStatus 0 0 (tileCommand 1) = none ∧
    (savingScene.tile 0 0).state = .saving { noSave with outstanding := 1 } ∧ (∃ t ∈ savingScene.teamsOn 0 0, t.uid = 1) ∧
    (savingScene.catchRef (.response { team := 1, group := 0, op := 3, pick := 0 })).isSome = true ∧ savingScene.allCaught 0 0 { noSave with outstanding := 1 } = false := by
  decide +kernel

theorem witness_TilesSave_stale : (∀ t ∈ savingScene.teamsOn 0 0, t.uid ≠ 7) ∧
    ∃ p ∈ savingScene.orphans, p.team = 7 ∧ p.group = 0 ∧ p.op = 2 ∧ p.die = 0 ∧ p.core = 0 := by decide +kernel

/-- A stopped tile whose team has nothing outstanding. -/
def sealScene : State := ordered 1 (.saving noSave) (large (whole id))

def sealed : State := (noSave.whey.foldl State.foldWhey sealScene).holdPuts 0 0

theorem witness_TilesSave_seal : (sealScene.tile 0 0).cmds = [tileCommand 1] ∧ sealScene.cmdStatus 0 0 (tileCommand 1) = none ∧
    (sealScene.tile 0 0).state = .saving noSave ∧ sealScene.allCaught 0 0 noSave = true ∧
    ∃ s2, sealed.writeImage 0 0 (tileCommand 1).image none
        ((sealed.teamsOn 0 0).map fun t => ({ t with frozen := false }, (sealed.part t.partition.val).epoch)) (sealed.subsOn 0 0)
        { counter := noSave.counter, outstanding := noSave.outstanding, folded := countResponses noSave.whey, lost := noSave.lost, stale := noSave.stale } = some s2 := by
  refine ⟨by decide +kernel, by decide +kernel, by decide +kernel, by decide +kernel, ?_⟩
  have h : ∀ t ∈ sealed.teamsOn 0 0, 4096 + ((({ t with frozen := false } : Team).groups.map fun g => (g.place.sub, g.place.base)).eraseDups.map fun k =>
      ((({ t with frozen := false } : Team).groups.filter fun g => (g.place.sub, g.place.base) == k).map (·.budget)).headD 0 * 128).sum +
      sealed.bound ({ t with frozen := false } : Team) .shared = 4096 * 4 := by decide +kernel
  have hn : (sealed.teamsOn 0 0).length = 1 := by decide +kernel
  obtain ⟨t, ht⟩ : ∃ t, sealed.teamsOn 0 0 = [t] := List.length_eq_one_iff.1 hn
  have hl := h t (by simp [ht])
  rw [← rowBytes_length] at hl
  obtain ⟨m, tg, po, hw⟩ := writeImage_goes (s := sealed) (d := 0) (p := 0) (addr := 0x200000) (slot := none) (subs := sealed.subsOn 0 0)
    (c := { counter := noSave.counter, outstanding := noSave.outstanding, folded := countResponses noSave.whey, lost := noSave.lost, stale := noSave.stale })
    (imageBody_length sealed { t with frozen := false } (sealed.part t.partition.val).epoch 4 hl) (by simp) (by decide) (by decide +kernel)
  rw [ht]
  exact ⟨_, hw⟩

theorem witness_TilesSave_start : ∀ st ∈ [TileState.open, .held], ((ordered 4 st State.reset).tile 0 0).cmds = [tileCommand 4] ∧
    (ordered 4 st State.reset).cmdStatus 0 0 (tileCommand 4) = none ∧ ((ordered 4 st State.reset).tile 0 0).state = st ∧
    (ordered 4 st State.reset).occupied 0 0 = false := by decide +kernel

/-- An image whose teams are in the epoch of their partition, and of another. -/
theorem witness_TilesSave_restore : ∀ e ∈ [(0 : BitVec 4), 3], let s := ordered 2 .held (imaged (imageHead (sha3 [])) none 0 |>.updPart 0 fun p => { p with epoch := e })
    (s.tile 0 0).cmds = [tileCommand 2] ∧ s.cmdStatus 0 0 (tileCommand 2) = none ∧ (s.tile 0 0).state = .held ∧ s.occupied 0 0 = false ∧
    s.drainedAt 0 0 = false ∧
    (∃ h body, s.readImage 0 0 0x200000 = some (h, body) ∧ s.imageFits 0 h body = true ∧
      ∃ i, s.images.find? (fun i => i.slot.isNone && i.digest == sha3 body) = some i ∧
        ∀ n y, i.teams[n]? = some y → directory h n = some (y.1.partition.val, y.2)) := by
  intro e he
  simp only [List.mem_cons, List.not_mem_nil, or_false] at he
  obtain rfl | rfl := he <;>
  exact ⟨by decide +kernel, by decide +kernel, by decide +kernel, by decide +kernel, by decide +kernel, _, _,
    image_read (imageHead_length _) (l := (large (whole id)).mem.cells) rfl (by decide +kernel) (by decide +kernel) (by decide +kernel)
      (by decide +kernel) (by decide +kernel), image_fits _ (by decide +kernel), bareImage none 0, finds (by rfl) (by rfl) (by rfl), directory_of⟩

/-- Bytes that are no image. -/
theorem witness_TilesSave_badImage : let s := ordered 2 .open (imaged (List.replicate 80 0) none 0)
    (s.tile 0 0).cmds = [tileCommand 2] ∧ s.cmdStatus 0 0 (tileCommand 2) = none ∧ (s.tile 0 0).state = .open ∧ s.occupied 0 0 = false ∧
    s.drainedAt 0 0 = false ∧ ∃ h body, s.readImage 0 0 0x200000 = some (h, body) ∧ s.imageFits 0 h body = false :=
  ⟨by decide +kernel, by decide +kernel, by decide +kernel, by decide +kernel, by decide +kernel, _, _,
    image_read (by decide) (l := (large (whole id)).mem.cells) rfl (by decide +kernel) (by decide +kernel) (by decide +kernel) (by decide +kernel)
      (by decide +kernel), rfl⟩

/-! Scan tests. -/

theorem witness_ScanTests_start : ((ordered 3 .held State.reset).tile 0 0).cmds = [tileCommand 3] ∧ ((ordered 3 .held State.reset).tile 0 0).state = .held ∧
    (ordered 3 .held State.reset).cmdStatus 0 0 (tileCommand 3) = none ∧ (ordered 3 .held State.reset).occupied 0 0 = false ∧
    (ordered 3 .open (whole id)).cmdStatus 0 0 (tileCommand 3) = none ∧ (ordered 3 .open (whole id)).occupied 0 0 = true := by decide +kernel

/-- A tile in a state, on the only core of the package; w says that a launch waits for it. -/
def tested (st : TileState) (expected : Word) (w : Bool) : State :=
  let s := State.reset.updTile 0 0 fun y => { y with state := st, cmds := [{ tileCommand 3 with expected := expected }] }
  { s with dies := s.dies.mapIdx fun i d => { d with coreMap := if i = 0 then #v[1, 0, 0] else #v[0, 0, 0] }
           launches := if w then [{ fetchLaunch 7 with placed := 0, priority := 3 }] else [] }

theorem witness_ScanTests_drain : ∀ w ∈ [true, false], ((tested .draining 0 w).tile 0 0).state = .draining ∧ (tested .draining 0 w).orphans = [] ∧
    (tested .draining 0 w).waitingFor { die := 0, core := 0 } (tileCommand 3).abort = w := by
  decide +kernel

theorem witness_ScanTests_response : let s := { tested .draining 0 false with orphans := [⟨7, 0, 2, 0, 0, 0, 0, 0⟩] }
    (s.tile 0 0).state = .draining ∧ ∃ y ∈ s.orphans, y.die = 0 ∧ y.core = 0 := by decide +kernel

theorem witness_ScanTests_abort : ((tested .testing 0 true).tile 0 0).state = .testing ∧ 4 ≤ (tileCommand 3).duration ∧
    (tested .testing 0 true).waitingFor { die := 0, core := 0 } (tileCommand 3).abort = true := by decide +kernel

/-- A test under way that expects a signature. -/
theorem witness_ScanTests_end : (∀ e, ((tested .testing e false).tile 0 0).state = .testing ∧
      ((tested .testing e false).tile 0 0).cmds = [{ tileCommand 3 with expected := e }] ∧
      (tested .testing e false).waitingFor { die := 0, core := 0 } 2 = false) ∧
    (∃ e, Config.scanSignature 0 0 ((tested .testing e false).die 0).revision 5 (tested .testing e false).free = e) ∧
    ∃ e, Config.scanSignature 0 0 ((tested .testing e false).die 0).revision 5 (tested .testing e false).free ≠ e :=
  ⟨fun _ => ⟨rfl, rfl, rfl⟩, ⟨Config.scanSignature 0 0 (State.reset.die 0).revision 5 1, rfl⟩,
    ⟨Config.scanSignature 0 0 (State.reset.die 0).revision 5 1 + 1, fun h => by
      have h1 : ∀ e, ((tested .testing e false).die 0).revision = (State.reset.die 0).revision := fun _ => rfl
      have h2 : ∀ e, (tested .testing e false).free = 1 := fun _ => rfl
      rw [h1, h2] at h
      generalize Config.scanSignature 0 0 (State.reset.die 0).revision 5 1 = w at h
      have := congrArg BitVec.toNat h
      rw [BitVec.toNat_add] at this
      have := w.isLt
      simp at *⟩⟩

/-! Swaps. -/

/-- Core 0 of die 0 waits on values alone and has reported it; the swap pool has some slots; a launch waits. -/
def swapScene (policy : BitVec 8) (slots : Nat) : State :=
  let s := (large (whole fun x => { x with hold := .value false ⟨.n32, .relaxed, .grp, .eq, 4, 6, 8, 0⟩ })).updPart 0 fun p =>
    { p with swapPolicy := policy, poolBase := 0x200000, poolSlots := slots }
  let s := s.updTile 0 0 fun y => { y with pending := true, reported := [(1, 0), (1, 1)] }
  { s with launches := s.launches ++ [{ fetchLaunch 7 with placed := 0 }], nextId := 9 }

def reported (s : State) : State := s.updTile 0 0 fun y => { y with pending := false }

theorem reported_team (s : State) (u : Nat) : (reported s).team? u = s.team? u := rfl

/-- Policy 0; a pool without slots; a core that has gone on. -/
theorem witness_SwapsAndReturns_counted : (∀ p ∈ [((0 : BitVec 8), 1), (1, 0)], ((swapScene p.1 p.2).tile 0 0).pending = true ∧
      ((swapScene p.1 p.2).part 0).swapPolicy = p.1 ∧ ((swapScene p.1 p.2).part 0).poolSlots = p.2 ∧
      ((swapScene p.1 p.2).team? 1).any (fun t => t.die == 0 && t.core == 0 && t.partition == 0) = true) ∧
    (reported ((swapScene 1 1).updSlice 1 0 0 fun x => { x with hold := .none })).allWaiting 0 0 = false := by decide +kernel

/-- A team with nothing outstanding saved in a slot of its pool. -/
def savedIn (s : State) (t : Team) (addr : DWord) (slot : Nat) : State :=
  { s with
    images := s.images ++ [{ partition := t.partition, addr := addr, slot := some slot, digest := sha3 (s.imageBody (s.withEpochs [t])),
                             generation := Config.generation t.die.val, revision := (s.die t.die.val).revision,
                             counter := (s.die t.die.val).counter, teams := s.withEpochs [t], subs := [], live := true }]
    free := s.free + 1 + 1, teams := s.teams.filter (·.uid != t.uid) }

theorem saveTeam_goes {s : State} {t : Team} {slot n : Nat} {addr : DWord} (hq : t.outstanding = 0) (hg : s.landings = []) (ht : s.team? t.uid = some t)
    (ha : (s.part t.partition.val).poolBase + BitVec.ofNat 64 (2 ^ 20 * slot) = addr) (hl : 4096 + t.rowBytes.length + s.bound t .shared = 4096 * n)
    (hb : addr.toNat + 4096 + (4096 * n + 16384) ≤ 2 ^ 57)
    (hr : (s.runs t.die.val t.partition.val .write (pageFuel addr.toNat (4096 + (4096 * n + 16384))) addr.toNat (4096 + (4096 * n + 16384))).2 = none) :
    ∃ m tg po, s.saveTeam t slot = some { savedIn s t addr slot with mem := m, tags := tg, poison := po } := by
  obtain ⟨m, tg, po, hw⟩ := writeImage_goes (s := s) (d := t.die.val) (p := t.partition) (addr := addr) (slot := some slot) (subs := [])
    (c := { counter := (s.die t.die.val).counter, outstanding := 0, folded := 0, lost := 0, stale := 0 }) (ts := s.withEpochs [t])
    (imageBody_length s t (s.part t.partition.val).epoch n hl) (by simp [State.withEpochs]) hb hr
  have h0 : s.answerTeam t.uid 0 = s := by
    rw [State.answerTeam, hg]
    rfl
  refine ⟨m, tg, po, ?_⟩
  unfold State.saveTeam
  simp only [hq, h0, ht, ha, hw, Option.map_some]
  rfl

/-- Memory has no part in which launch is placed next, nor where. -/
theorem canPlace_parts (s : State) (m : Memory) (tg : List (Nat × Key)) (po : List Nat) (l : Launch) (d : Fin 8) (c : Nat) :
    ({ s with mem := m, tags := tg, poison := po } : State).canPlace l d c = s.canPlace l d c := rfl

theorem bestLaunch_parts (s : State) (m : Memory) (tg : List (Nat × Key)) (po : List Nat) (n : Nat) (p : Fin 16) (d : Fin 8) (c : Nat) :
    bestLaunch n (({ s with mem := m, tags := tg, poison := po } : State).launches.filter fun l => l.partition == p &&
      (({ s with mem := m, tags := tg, poison := po } : State).canPlace l d c).isSome) =
    bestLaunch n (s.launches.filter fun l => l.partition == p && (s.canPlace l d c).isSome) := rfl

theorem placeWaiting_launch {s : State} {p : Fin 16} {d : Fin 8} {c u : Nat} {w : Launch} {rs : List RowPlace}
    (hf : (s.images.filter fun i => i.partition == p && i.teams.all (·.1.uid != u)) = [])
    (h1 : bestLaunch 0 (s.launches.filter fun l => l.partition == p && (s.canPlace l d c).isSome) = some w) (h2 : s.canPlace w d c = some rs) :
    s.placeWaiting p d c u = some (s.placeTeam w d c rs) := by
  simp [State.placeWaiting, hf, h1, h2]

/-- The saved team's place goes to the launch that waits. -/
theorem witness_SwapsAndReturns_swap : ((swapScene 1 1).tile 0 0).pending = true ∧ (reported (swapScene 1 1)).allWaiting 0 0 = true ∧
    ((swapScene 1 1).part 0).swapPolicy = 1 ∧ 0 < ((swapScene 1 1).part 0).poolSlots ∧ (swapScene 1 1).images = [] ∧
    ∃ t, (swapScene 1 1).team? 1 = some t ∧ t.die = 0 ∧ t.core = 0 ∧ t.partition = 0 ∧
      ∃ s2, (reported (swapScene 1 1)).saveTeam t 0 = some s2 ∧ (∀ i ∈ s2.images, ∃ y ∈ i.teams, y.1.uid = t.uid) ∧
        (∃ w rs, bestLaunch 0 (s2.launches.filter fun l => l.partition == 0 && (s2.canPlace l 0 0).isSome) = some w ∧ s2.canPlace w 0 0 = some rs) ∧
        ∃ s3, s2.placeWaiting 0 0 0 1 = some s3 := by
  refine ⟨by decide +kernel, by decide +kernel, by decide +kernel, by decide +kernel, by decide +kernel, ?_⟩
  obtain ⟨t, ht, hd, hc, hp, hu, hq, hb, hw⟩ : Is ((reported (swapScene 1 1)).team? 1) fun t => t.die = 0 ∧ t.core = 0 ∧ t.partition = 0 ∧ t.uid = 1 ∧
      t.outstanding = 0 ∧ 4096 + ((t.groups.map fun g => (g.place.sub, g.place.base)).eraseDups.map fun k =>
        ((t.groups.filter fun g => (g.place.sub, g.place.base) == k).map (·.budget)).headD 0 * 128).sum + (reported (swapScene 1 1)).bound t .shared = 4096 * 4 ∧
      ((bestLaunch 0 ((savedIn (reported (swapScene 1 1)) t 0x200000 0).launches.filter fun l => l.partition == 0 &&
        ((savedIn (reported (swapScene 1 1)) t 0x200000 0).canPlace l 0 0).isSome)).bind fun w =>
          (savedIn (reported (swapScene 1 1)) t 0x200000 0).canPlace w 0 0).isSome = true := is (by decide +kernel)
  rw [← rowBytes_length] at hb
  obtain ⟨m, tg, po, hs⟩ := saveTeam_goes (s := reported (swapScene 1 1)) (t := t) (slot := 0) (n := 4) (addr := 0x200000) hq (by decide +kernel) (hu.symm ▸ ht)
    (by rw [hp]; decide +kernel) hb (by decide) (by rw [hd, hp]; decide +kernel)
  obtain ⟨rs, hw⟩ := Option.isSome_iff_exists.1 hw
  obtain ⟨w, hw1, hw2⟩ := Option.bind_eq_some_iff.1 hw
  have hi : ∀ i ∈ ({ savedIn (reported (swapScene 1 1)) t 0x200000 0 with mem := m, tags := tg, poison := po } : State).images,
      i.teams = (reported (swapScene 1 1)).withEpochs [t] := by
    have h0 : (reported (swapScene 1 1)).images = [] := by decide +kernel
    intro i hi
    simp only [savedIn, h0, List.nil_append, List.mem_singleton] at hi
    rw [hi]
  have hi2 : ∀ i ∈ ({ savedIn (reported (swapScene 1 1)) t 0x200000 0 with mem := m, tags := tg, poison := po } : State).images,
      ∃ y ∈ i.teams, y.1.uid = t.uid := fun i h => ⟨_, by rw [hi i h]; exact List.mem_singleton.2 rfl, rfl⟩
  have ht' : (swapScene 1 1).team? 1 = some t := (reported_team _ 1).symm.trans ht
  refine ⟨t, ht', hd, hc, hp, _, hs, hi2, ⟨w, rs, (bestLaunch_parts _ m tg po 0 0 0 0).trans hw1, (canPlace_parts _ m tg po w 0 0).trans hw2⟩, ?_⟩
  have hf : (({ savedIn (reported (swapScene 1 1)) t 0x200000 0 with mem := m, tags := tg, poison := po } : State).images.filter fun i =>
      i.partition == 0 && i.teams.all (·.1.uid != 1)) = [] := by
    rw [List.filter_eq_nil_iff]
    intro i h
    rw [hi i h]
    simp [State.withEpochs, hu]
  exact ⟨_, placeWaiting_launch hf ((bestLaunch_parts _ m tg po 0 0 0 0).trans hw1) ((canPlace_parts _ m tg po w 0 0).trans hw2)⟩

/-- A swapped team of the epoch of its partition, and of another. -/
theorem witness_SwapsAndReturns_return : ∀ e ∈ [(0 : BitVec 4), 3],
    let s := imaged (imageHead (sha3 [])) (some 0) 0 |>.updPart 0 fun p => { p with epoch := e }
    s.images = [bareImage (some 0) 0] ∧ s.coreOpen 0 0 = true ∧
    (match s.images with
     | i :: _ => i.slot == some 0 && i.generation == Config.generation 0 && i.revision == (s.die 0).revision && i.partition == 0 && i.addr == 0x200000 &&
        (match i.teams with
         | [(t, _)] => t.partition == 0 && (match s.launch? t.launch with
            | some l => (s.coreFits { l with die := none } 0 0).isSome
            | none => false)
         | _ => false)
     | [] => false) = true ∧ (s.part 0).epoch = e ∧
    ∃ h body, s.readImage 0 0 0x200000 = some (h, body) ∧ s.imageFits 0 h body = true ∧ sha3 body = (bareImage (some 0) 0).digest ∧
      directory h 0 = some (0, 0) := by
  intro e he
  simp only [List.mem_cons, List.not_mem_nil, or_false] at he
  obtain rfl | rfl := he <;>
  exact ⟨rfl, by decide +kernel, by decide +kernel, by decide +kernel, _, _,
    image_read (imageHead_length _) (l := (large (whole id)).mem.cells) rfl (by decide +kernel) (by decide +kernel) (by decide +kernel)
      (by decide +kernel) (by decide +kernel), image_fits _ (by decide +kernel), rfl, directory_first⟩

end Sys2Proof.Tests
end

