-- ==== Sys2Proof/Tests/WitnessesG.lean ====
section
/-! SUPPORT. Witnesses of the hypotheses of the statements about power, package events and management commands. -/

set_option Elab.async false

namespace Sys2Proof.Tests

open Sys2Proof.Machine

/-! Power. -/

def goodWords : Vector Word 8 := Vector.ofFn fun i => if i.val < 4 then 0x0206A010 else 0x01058010

/-- A bring-up in which every attempt passes. -/
def goodStart : BringUp :=
  { firmwareOk := true, firmwareDigest := 9, nearOk := Vector.replicate 4 true, farOk := Vector.replicate 2 true, farBytes := #v[1000000, 5],
    compute := Vector.ofFn fun i => some (goodWords[i]), detail := 3, lostAt := none }

theorem witness_PackageEvents_power : ({ State.reset with powered := false } : State).powered = false ∧ State.reset.journal = [] ∧
    State.reset.outOfService = 0 ∧ goodStart.lostAt = none ∧ goodStart.firmwareOk = true ∧ (∀ i : Fin 4, goodStart.nearOk[i] = true) ∧
    (∀ i : Fin 2, goodStart.farOk[i] = true) ∧
    ∀ i : Fin 8, goodStart.compute[i] = some goodWords[i] ∧ goodWords[i].toNat / 2 ^ 16 % 256 = (if i.val < 4 then 6 else 5) ∧
      1 ≤ goodWords[i].toNat / 2 ^ 8 % 256 ∧ goodWords[i].toNat / 2 ^ 8 % 256 ≤ (if i.val < 4 then 160 else 128) ∧ goodWords[i].toNat % 256 = 16 := by
  decide +kernel

/-! Package events. -/

theorem witness_PackageEvents_reset : let s := State.reset.updPart 3 fun p => { p with resetting := true, resetCount := 5 }
    (s.part 3).resetting = true ∧ (s.part 3).resetWait = 0 ∧ (s.part 3).events.length < Config.eventDepth := by decide +kernel

theorem witness_PackageEvents_pending : let s := State.reset.updPart 3 fun p => { p with resetting := true, resetWait := 2 }
    (s.part 3).resetWait ≠ 0 ∧ (State.reset.part 3).resetting = false := by decide +kernel

theorem witness_PackageEvents_trained : let s := State.reset.updDie 9 fun d => { d with resetting := some MgmtCmd.none }
    (s.die 9).resetting = some MgmtCmd.none ∧ s.teams = [] := by decide +kernel

theorem witness_PackageEvents_trip : (State.reset.die 9).live = true ∧ ∀ p : Fin 16, (State.reset.part p.val).events.length < Config.eventDepth := by
  decide +kernel

theorem witness_PackageEvents_cluster : (State.reset.die 0).live = true ∧ 21 / 4 = 5 ∧ 21 < Config.cores 0 ∧ State.reset.drained = [] ∧
    State.reset.teams = [] := by decide +kernel

/-! Commands. -/

def command (part die operand0 operand1 : Nat) : MgmtCmd :=
  { port := 3, source := 0, op := 0, partition := BitVec.ofNat 8 part, die := BitVec.ofNat 8 die, tag := 0x1234, operand0 := BitVec.ofNat 64 operand0,
    operand1 := BitVec.ofNat 64 operand1, tail := List.replicate 40 0 }

def commanded (s : State) (c : MgmtCmd) : State := { s with mgmt := c }

/-- A command with these operands names partition 3 and die 2, and its register accepts the value. -/
def accepts (operand0 operand1 : Nat) (p : State → DWord → Nat → Bool) : Bool :=
  let s := commanded State.reset (command 3 2 operand0 operand1)
  s.mgmt.tail.all (· == 0) && s.mgmt.partition == 3 && s.mgmt.die == 2 && (s.die 2).live && p s s.mgmt.operand0 s.mgmt.operand1.toNat

theorem witness_RegisterCommands_access : accepts 0x80F0000000000001 255 (fun _ v n => decide (n < 256) && v &&& ~~~0xC0F0FFFFFFFFFFFF == 0) = true := by
  decide +kernel

theorem witness_RegisterCommands_descriptor : accepts (2 ^ 63 + 4 * 2 ^ 40 + 2 * 2 ^ 32 + 3 * 2 ^ 24 + 100 * 2 ^ 12) 0 (fun s v _ =>
    v &&& ~~~0x80FFFFFFFFFFF000 == 0 && decide (v.toNat / 2 ^ 24 % 256 ≤ 128) &&
      decide (v.toNat / 2 ^ 40 % 256 + v.toNat / 2 ^ 32 % 256 ≤ 256) && !s.descriptorRefused 3 v) = true := by decide +kernel

theorem witness_RegisterCommands_values : accepts 0xFFFFFFFF 0 (fun _ v _ => v &&& ~~~0xFFFFFFFF == 0) = true ∧
    accepts 0xFFFFFFFFF001 0 (fun _ v _ => v &&& ~~~0xFFFFFFFFF001 == 0) = true ∧
    accepts 0x01FFFFFFFFFFF010 0 (fun _ v _ => v &&& ~~~0x01FFFFFFFFFFF01F == 0 && decide (4 ≤ v.toNat % 32 ∧ v.toNat % 32 ≤ 16)) = true ∧
    accepts 1 77 (fun _ v _ => decide (v.toNat ≤ 1)) = true ∧ accepts 3000 0 (fun s v _ => decide (1500 ≤ v.toNat ∧ v.toNat ≤ 6000 ∧
      ((s.partitions.toList.filter fun x => x.descriptor.getLsbD 63).map fun x => x.descriptor.toNat / 2 ^ 12 % 4096).sum ≤ v.toNat * 7680 / 6000)) = true := by
  decide +kernel

theorem witness_RegisterCommands_pool : accepts 0x100000 4096 (fun s v n => decide (n ≤ 4096) && v.toNat % 2 ^ 20 == 0 && decide (v.toNat < 2 ^ 57) &&
    s.images.isEmpty) = true := by decide +kernel

/-! Commands on memory, of partition 0. -/

theorem witness_MemoryCommands_allocation : let s := commanded State.reset (command 0 2 (3 * 2 ^ 32 + 5 * 2 ^ 16) 0)
    let v := s.mgmt.operand0
    s.mgmt.partition = (0 : Fin 16).val ∧ s.mgmt.tail.all (· == 0) = true ∧ s.mgmt.die = (2 : Fin 8).val ∧ (s.die 2).live = true ∧
    v &&& ~~~0x0000FFFFFFFF0000#64 = 0 ∧ v.toNat / 2 ^ 32 % 2 ^ 16 + v.toNat / 2 ^ 16 % 2 ^ 16 ≤ Config.scratchMiB 2 ∧
    s.allocOverlap 0 2 (v.toNat / 2 ^ 32 % 2 ^ 16) (v.toNat / 2 ^ 16 % 2 ^ 16) = false ∧ s.teams = [] := by decide +kernel

/-- A command of partition 0, whose window has pages, with an address and a number. -/
def reading (operand0 operand1 : Nat) : State := commanded (mapped State.reset) (command 0 0 operand0 operand1)

theorem witness_MemoryCommands_key : let s := reading 0x1000 5
    s.mgmt.partition = (0 : Fin 16).val ∧ s.mgmt.tail.all (· == 0) = true ∧ s.keyed 0 = true ∧ (s.part 0).descriptor.toNat / 2 ^ 40 % 256 ≤ 5 ∧
    5 < (s.part 0).descriptor.toNat / 2 ^ 40 % 256 + (s.part 0).descriptor.toNat / 2 ^ 32 % 256 ∧
    (s.readGlobal 12 0 .read 0x1000 64).toOption.isSome = true ∧ (s.writeGlobal 12 0 0x1000 (List.replicate 64 (0, false))).toOption.isSome = true := by
  decide +kernel

theorem witness_MemoryCommands_pool : let s := reading 0x1008 16
    s.mgmt.partition = (0 : Fin 16).val ∧ s.mgmt.operand1.toNat ≤ 4096 ∧ s.mgmt.operand0.toNat % 8 = 0 ∧ s.mgmt.operand0.toNat < 2 ^ 57 ∧
    (s.readGlobal 12 0 .read 0x1008 (8 * 16)).toOption.isSome = true := by decide +kernel

theorem witness_MemoryCommands_patch : let s := reading 0x1020 0
    s.mgmt.operand0.toNat % 32 = 0 ∧ (s.readGlobal 12 0 .read 0x1020 32).toOption.isSome = true := by decide +kernel

theorem witness_MemoryCommands_counter : ((commanded State.reset (command 0 0 2 0)).counter? (command 0 0 2 0)).isSome = true := by decide +kernel

theorem witness_MemoryCommands_migration : let s := commanded State.reset { command 0 13 0x2 0x1000 with tail := toLE 8 4096 ++ List.replicate 32 0 }
    (s.mgmt.tail.drop 32).all (· == 0) = true ∧ s.mgmt.die = 12 + (1 : Fin 2).val := by decide +kernel

/-- Pages of 4 KiB from an aligned address, each of which translates, take any number of bytes that they hold. -/
theorem runs_end {s : State} {d p : Nat} {acc : Access} : ∀ (fuel k a n : Nat), a % 4096 = 0 → n ≤ 4096 * k →
    (∀ i, i < k → ∃ t, s.translate d p acc (a + 4096 * i) = .ok t) → (s.runs d p acc fuel a n).2 = none
  | 0, _, _, _, _, _, _ => rfl
  | fuel + 1, 0, a, n, _, hn, _ => by
    have : n = 0 := by omega
    subst this
    rfl
  | fuel + 1, k + 1, a, n, ha, hn, ht => by
    obtain ⟨t, h⟩ := ht 0 (by omega)
    rw [Nat.mul_zero, Nat.add_zero] at h
    unfold State.runs
    split
    · rfl
    · rw [h]
      simp only [ha, Nat.sub_zero]
      by_cases hk : n ≤ 4096
      · rw [Nat.min_eq_left hk, Nat.sub_self]
        cases fuel <;> rfl
      · rw [Nat.min_eq_right (by omega)]
        exact runs_end fuel k (a + 4096) (n - 4096) (by omega) (by omega) fun i hi => by
          have := ht (i + 1) (by omega)
          rwa [show a + 4096 * (i + 1) = a + 4096 + 4096 * i by omega] at this

/-- A report of any length goes into the 64 KiB from 0x200000 on. -/
theorem report_goes {s : State} {bs : List Byte} (hp : ∀ i, i < 16 → ∃ t, s.translate 12 0 .write (0x200000 + 4096 * i) = .ok t) (hl : bs.length < 65536) :
    0x200000 + bs.length ≤ 2 ^ 57 ∧ ∃ s1, s.writeGlobal 12 0 0x200000 (bs.map fun b => (b, false)) = .ok s1 := by
  have h4 := runs_end (pageFuel 0x200000 bs.length) 16 0x200000 bs.length (by decide) (by omega) hp
  refine ⟨by omega, ?_⟩
  unfold State.writeGlobal
  rw [List.length_map]
  generalize s.runs 12 0 .write (pageFuel 0x200000 bs.length) 0x200000 bs.length = x at h4
  obtain ⟨x1, x2⟩ := x
  simp only at h4
  subst h4
  exact ⟨_, rfl⟩

def reportScene : State := commanded (large State.reset) (command 0 0 0x1000 0x200000)

theorem witness_MemoryCommands_report : reportScene.mgmt.partition = (0 : Fin 16).val ∧ (reportScene.readGlobal 12 0 .read 0x1000 32).toOption.isSome = true ∧
    reportScene.mgmt.operand1.toNat = 0x200000 ∧ ∀ bs words,
    let report := (List.range (Config.reportLength reportScene.measured.length 8)).map
      (Config.reportByte (reportScene.identity.getD 0) reportScene.measured bs words reportScene.free)
    0x200000 + report.length ≤ 2 ^ 57 ∧
    ∃ s1, { reportScene with free := reportScene.free + 1 }.writeGlobal 12 0 0x200000 (report.map fun b => (b, false)) = .ok s1 := by
  refine ⟨by decide +kernel, by decide +kernel, by decide +kernel, fun bs words => report_goes ?_ ?_⟩
  · intro i hi
    have h : ∀ i : Fin 16, (({ reportScene with free := reportScene.free + 1 } : State).translate 12 0 .write (0x200000 + 4096 * i.val)).toOption.isSome = true := by
      decide +kernel
    have := h ⟨i, hi⟩
    generalize ({ reportScene with free := reportScene.free + 1 } : State).translate 12 0 .write (0x200000 + 4096 * i) = e at this
    cases e with
    | error _ => simp [Except.toOption] at this
    | ok t => exact ⟨t, rfl⟩
  · rw [List.length_map, List.length_range]
    exact (Config.reportSize _ _).isLt

/-! Resets. -/

/-- The team of whole, and what a reset of its partition or die removes. -/
def resetScene (part die : Nat) : State :=
  let s := commanded (mapped (whole id)) (command part die 0 0)
  { s.updDie 0 fun d => { d with curd := [⟨0, 0, Vector.replicate 4 0⟩] } with continuations := [⟨0, 0, 0, [], false⟩] }

theorem witness_ResetCommands : ∀ k : Fin 3, let s := [resetScene 0 0, resetScene 3 0, resetScene 0 9].getD k.val State.reset
    s.mgmt.tail.all (· == 0) = true ∧ s.mgmt.partition = [(0 : Fin 16), 3, 0].getD k.val 0 ∧ s.mgmt.die = [0, 0, 9].getD k.val 0 ∧
    (s.die 0).live = true ∧ ∀ x ∈ s.teams, x.die = 0 := by decide +kernel

/-! Held work. -/

/-- Group 0 of the team is drained with cluster 0 of die 0. -/
def drainedScene (op : Nat) (broken : Bool) : State :=
  let s := commanded (whole id) (command 0 0 op 0)
  { s with drained := [{ die := 0, cluster := 0, inconsistent := broken, records := [] }]
           teams := s.teams.map fun t => t.mapGroups fun g => { g with drained := g.num == 0 } }

theorem witness_HeldWork_clusters : ∀ x ∈ [(0, true), (0, false), (1, false)], let s := drainedScene x.1 x.2
    s.mgmt.tail.all (· == 0) = true ∧ s.mgmt.die = (0 : Fin 8).val ∧ (s.die 0).live = true ∧ s.mgmt.operand1.toNat < Config.cores 0 / 4 ∧
    s.drained.find? (fun y => y.die == 0 && y.cluster == s.mgmt.operand1.toNat) = some ⟨0, 0, x.2, []⟩ ∧ s.mgmt.operand0.toNat = x.1 ∧
    (∃ t ∈ s.teams, t.die = 0 ∧ t.core / 4 = 0 ∧ ∃ g ∈ t.groups, g.drained = true) := by decide +kernel

/-- Group 1 is held at a stop of a class. -/
def heldScene (op : Nat) (cause : FaultClass) : State :=
  commanded (lone' cause) (command 0 0 op (2 ^ 32))
where
  lone' (cause : FaultClass) : State :=
    let s := whole id
    { s with teams := s.teams.map fun t => t.mapGroups fun g => if g.num = 1 then g.mapSlices fun x =>
        { x with dbg := if x.num = 0 then .held cause else .stopped } else g }

theorem witness_HeldWork_groups : ∀ x ∈ [(0, FaultClass.debugStop), (0, .programTrap), (1, .programTrap), (2, .address)], let s := heldScene x.1 x.2
    s.mgmt.tail.all (· == 0) = true ∧ s.mgmt.partition = (0 : Fin 16).val ∧ s.named = true ∧ s.mgmt.operand1.toNat < 2 ^ 40 ∧
    s.mgmt.operand0.toNat = x.1 ∧
    ((s.teams.find? fun t => t.partition == 0 && t.lin == s.mgmt.operand1.toNat % 2 ^ 32 &&
        (match t.group? (s.mgmt.operand1.toNat / 2 ^ 32) with | some g => g.slices.any (·.dbg.isHeld) | none => false)).any fun t =>
      s.calm t.uid && (s.launch? t.launch).isSome && (t.group? (s.mgmt.operand1.toNat / 2 ^ 32)).any fun g => (g.slices.find? (·.dbg.isHeld)).isSome && g.laneOps.isEmpty &&
        (x.1 == 2 || g.slices.all fun y => match y.dbg with
          | .held c => c == .debugStop || c == .programTrap
          | _ => true)) = true := by decide +kernel

/-- A trap of another class may not be resumed. -/
theorem witness_HeldWork_refused : ((heldScene 0 .address).teams.all fun t => t.groups.any fun g => g.slices.any fun x => match x.dbg with
    | .held c => c != .debugStop && c != .programTrap
    | _ => false) = true := by decide +kernel

end Sys2Proof.Tests
end

