-- ==== Sys2Proof/Tests/WitnessesH.lean ====
section
/-! SUPPORT. Witnesses of the hypotheses of the statements about encodings and steps. -/

set_option Elab.async false

namespace Sys2Proof.Tests

open Sys2Proof.Machine

/-! Encodings. -/

theorem witness_EncodingsAgree : (Instr.addI32 ⟨always, 2, 0, 1⟩).encodable = true ∧ (Instr.addI32 ⟨always, 2, 0, 1⟩).wellFormed = true ∧
    (match decodeBytes (encodeBytes (.addI32 ⟨always, 2, 0, 1⟩) ++ [7]) with
     | .ok (i, rest) => decide (i = .addI32 ⟨always, 2, 0, 1⟩) && rest == [7]
     | .error _ => false) = true := by decide +kernel

/-! Steps. -/

/-- From reset, a team at SADD.I32 s2, s1, 127, whose turn is next. -/
def addNext : State := State.reset.withFetchWord 64 0x0000007FC1040800

def steps (s : State) (p : State → Bool) : Bool := match step s with
  | .next t => p t
  | _ => false

theorem witness_StepsKeepMemories : addNext.mem.wf = true ∧ addNext.teams.all Team.tidy = true ∧ addNext.images = [] ∧ steps addNext (fun _ => true) = true := by
  decide +kernel

theorem witness_StepsKeepNames : addNext.named = true ∧ addNext.ownRecords = true ∧ addNext.freshOps = true ∧ steps addNext (fun _ => true) = true := by decide +kernel

def badStart : BringUp :=
  { firmwareOk := false, firmwareDigest := 0, nearOk := Vector.replicate 4 false, farOk := Vector.replicate 2 false, farBytes := Vector.replicate 2 0,
    compute := Vector.replicate 8 none, detail := 0, lostAt := none }

/-- Without power, with turns to come. -/
def unpowered (r : List Turn) : State := { State.reset with powered := false, agenda := r }

theorem witness_StepsAnswer : addNext.powered = true ∧ (unpowered [.event (.powerOn badStart)]).powered = false ∧
    (unpowered [.event (.powerOn badStart)]).agenda = [.event (.powerOn badStart)] ∧ (unpowered [.issue 0 0 0]).powered = false ∧
    (unpowered [.issue 0 0 0]).agenda ≠ [] := by decide +kernel

theorem witness_StepsAnswer_other : ∀ o r, (unpowered [.issue 0 0 0]).agenda ≠ .event (.powerOn o) :: r := by
  intro o r h
  injection h with h _
  cases h

/-- The gang that the next turn issues from stands at a word as the statement of a decoded step says. -/
def atWord (s : State) (test : State → Group × Slice → Word → Cand → Bool) : Bool :=
  match s.agenda with
  | .issue d c k :: r =>
    let s0 := { s with agenda := r }
    match (s0.sub d c k).pick (s0.ready d c k) with
    | some q => match s0.team? q.team with
      | some t => match s0.launch? t.launch, (t.members q.gang).find? fun m => !m.2.sdone with
        | some l, some m => match m.2.wordAt 0 with
          | some w => s.powered && l.hasPlane 0 && decide (t.occupied q.gang = [0]) &&
              test { s0 with cur := { team := q.team, gang := q.gang, before := t.groups } } m w q &&
              (t.members q.gang).all fun y => y.2.dbg != .stopSoon
          | none => false
        | _, _ => false
      | none => false
    | none => false
  | _ => false

theorem witness_StepsRunTheDecoded_instruction : atWord addNext (fun s1 m w q =>
    m.2.inClause && decide (m.2.nth ≤ 16) && m.2.whole 0 && !isJ6 w && (match decode w.toNat (m.2.extAt 0).toNat with
     | .ok i => decide (i = .saddI32Imm ⟨2, 1, 127⟩) && s1.selectorOk i && !perGroupInstr i &&
         match exec i ((s1.countIssues 0 0 0 1 q.pos).endReport 0 0 q.team [0]).noteIssue with
         | .next _ => true
         | _ => false
     | .error _ => false)) = true := by decide +kernel

theorem witness_StepsRunTheDecoded_header : atWord (State.reset.withFetchWord 32 0xBF8007F8) (fun s1 m w _ =>
    !m.2.inClause && isHeader w && (match decode w.toNat 0 with
     | .ok i => decide (i = .clauseHeader ⟨0, none, none, 0⟩) && match exec i s1 with
       | .next _ => true
       | _ => false
     | .error _ => false)) = true := by decide +kernel

end Sys2Proof.Tests
end

