-- ==== Sys2Proof/Tests/WitnessesI.lean ====
section
/-! SUPPORT. Witnesses of the hypotheses of the statements about copies, sends, landings and the tiles that engines read. -/

set_option Elab.async false

namespace Sys2Proof.Tests

open Sys2Proof.Machine

/-! Copies issue. -/

/-- s4 and s5, s6 and s7, s8, s10 and s11: the operands of a copy. -/
def copyScene (d a c : DWord) (n : Word) : State :=
  mapped (allotted { lone (fun x => setPair 10 c (setPair 6 a (setPair 4 d (x.setS 8 n)))) with launches := [sceneLaunch 8 128 false] })

theorem witness_CopiesIssue_registers : (lone id).named = true ∧ (lone id).begins = true ∧
    ∀ rd ∈ [sPair 4 ++ sPair 6 ++ [.s 8], sPair 4 ++ sPair 6 ++ sPair 8 ++ sRun 12 3, sPair 4 ++ sPair 6 ++ [.s 8] ++ sPair 10],
      (lone id).unmarked rd [] = true ∧ (lone id).cleanScalars rd = true := by decide +kernel

/-- A copy in to the end of the shared aperture, one of no bytes, and a copy out of the scratchpad. -/
theorem witness_CopiesIssue : ∀ f,
    (copyScene (inShared (128 * 1024 - 32)) 0x1000 0 32).whenInTurn f (fun s1 t g x => (∀ p ∈ g.ops, p.id ≠ g.nextOp) ∧ g.counter .copyIn < 63 ∧
      (x.getS 8).toNat ≤ 2 ^ 28 ∧ (x.getS 8).toNat % 4 = 0 ∧ (x.pair 4).toNat % 4 = 0 ∧ (x.pair 6).toNat % 4 = 0 ∧
      s1.onChipRange t (x.pair 4) 32 = true ∧ (x.pair 6).toNat < 2 ^ 57) ∧
    (copyScene 0x1000 (inScratch (2 * 2 ^ 20 - 32)) 0 32).whenInTurn f (fun s1 t g x => g.counter .copyOut < 63 ∧
      s1.onChipRange t (x.pair 6) 32 = true ∧ (x.pair 4).toNat < 2 ^ 57) ∧
    (copyScene (inShared 0) 0x1000 0 0).whenInTurn f (fun _ _ _ x => ((x.getS 8).toNat == 0) = true) :=
  fun _ => ⟨oneTurn (by decide +kernel) _, oneTurn (by decide +kernel) _, oneTurn (by decide +kernel) _⟩

/-- A gang of four slices, one after another. -/
theorem witness_CopiesIssue_gang :
    let s : State := { whole (fun x => setPair 6 0x1000 (setPair 4 (inShared (64 * x.num)) (x.setS 8 32))) with launches := [sceneLaunch 8 128 false] }
    s.whenInTurn (fun s1 _ g x => s1.opIssued g x (.copy { out := false, dst := x.pair 4, src := x.pair 6, len := (x.getS 8).toNat }) .copyIn
      ((x.getS 8).toNat == 0)) (fun s1 t g x => (∀ p ∈ g.ops, p.id ≠ g.nextOp) ∧ g.counter .copyIn < 63 ∧ s1.onChipRange t (x.pair 4) 32 = true) :=
  turns (by decide +kernel)

/-- A gather of 4 rows of 16 bytes, and an expansion to .BF16. -/
theorem witness_CopiesIssue_gather : ∀ f,
    let s := { copyScene 0 0 0 0 with teams := [sceneTeam 8 2 fun g x => if g.num = 0 ∧ x.num = 0 then
      ((setPair 8 (inShared 128) (setPair 6 0x1000 (setPair 4 (inShared 64) x))).setS 12 4).setS 13 16 else { x with gang := 5 }] }
    s.whenInTurn f fun s t g x => (∀ p ∈ g.ops, p.id ≠ g.nextOp) ∧ g.counter .gather < 63 ∧ (x.getS 12).toNat = 4 ∧ (x.getS 13).toNat = 16 ∧
      (x.getS 14).toNat % 4 = 0 ∧ (x.pair 4).toNat % 4 = 0 ∧ (x.pair 6).toNat % 4 = 0 ∧
      (x.pair 8).toNat % 4 = 0 ∧ s.onChipRange t (x.pair 4) 64 = true ∧ (x.pair 6).toNat < 2 ^ 57 ∧ (spaceOf (x.pair 8)).1 = .shared ∧
      s.onChipRange t (x.pair 8) 16 = true := fun f => oneTurn (by decide +kernel) _

theorem witness_CopiesIssue_expand : ∀ f, (copyScene (inShared 64) 0x1000 (inShared 0) 3).whenInTurn f fun s t g x =>
    (∀ p ∈ g.ops, p.id ≠ g.nextOp) ∧ g.counter .copyIn < 63 ∧
    (x.pair 4).toNat % 32 = 0 ∧ (x.pair 6).toNat % 8 = 0 ∧ s.onChipRange t (x.pair 4) (16384 * ETy.bf16.bytes) = true ∧
    (x.pair 6).toNat < 2 ^ 57 := fun f => oneTurn (by decide +kernel) _

/-- Each of the four checks is the first to fail somewhere: a length, an alignment, a space, a range by one unit. -/
def copyBad (d a n : Nat) (bound : Nat) : List Bool :=
  let da := BitVec.ofNat 64 d
  [decide (n > 2 ^ 28) || n % 4 != 0, d % 4 != 0 || a % 4 != 0,
   !(decide ((spaceOf da).1 = .shared) || decide ((spaceOf da).1 = .scratch)) || decide (2 ^ 57 ≤ a), decide (bound < (spaceOf da).2 + n)]

theorem witness_CopiesIssue_checks :
    (copyBad (inShared 0).toNat 0x1000 (2 ^ 28 + 4) 131072).findIdx? (·) = some 0 ∧
    (copyBad (inShared 0).toNat 0x1002 4 131072).findIdx? (·) = some 1 ∧ (copyBad (inStack 0).toNat 0x1000 4 131072).findIdx? (·) = some 2 ∧
    (copyBad (inShared 0).toNat (2 ^ 57) 4 131072).findIdx? (·) = some 2 ∧
    (copyBad (inShared 131072).toNat 0x1000 4 131072).findIdx? (·) = some 3 ∧
    (copyBad (inShared 131068).toNat 0x1000 4 131072).any (·) = false := by decide +kernel

theorem witness_CopiesIssue_full :
    Solo ((copyScene (inShared 0) 0x1000 0 4).updGroup 1 0 fun g =>
        { g with ops := (List.range 63).map fun i => copyOp (i + 1) .copyIn (.copy { out := false, dst := 0, src := 0, len := 64 }) })
      fun g _ _ _ => 63 ≤ g.counter .copyIn := solo (by decide +kernel)

/-! Sends. -/

/-- A remote copy to the end of the allocation on die 1, a put to the scratchpad and a put to team 0's shared memory. -/
theorem witness_SendsIssue : ∀ f,
    (copyScene (BitVec.ofNat 64 (2 ^ 32 + 2 ^ 20 - 64)) (inShared 96) (BitVec.ofNat 64 (2 ^ 32 + 1024)) 64).whenInTurn f (fun s1 t g x =>
      (∀ p ∈ g.ops, p.id ≠ g.nextOp) ∧ g.counter .copyOut < 63 ∧ s1.onChipRange t (x.pair 6) 64 = true ∧ (x.getS 8).toNat = 64 ∧
      (x.pair 4).toNat % 32 = 0 ∧ (x.pair 6).toNat % 32 = 0 ∧ (x.pair 10).toNat % 16 = 0 ∧ (x.pair 4).toNat < 2 ^ 36 ∧
      (x.pair 10).toNat / 2 ^ 32 = 1 ∧ (x.pair 4).toNat / 2 ^ 32 % 16 = 1 ∧ 1 ≠ t.die.val ∧ (s1.die 1).live = true ∧
      (x.pair 4).toNat % 2 ^ 32 + 64 ≤ (s1.allocation t.partition.val 1).2 ∧ (x.pair 10).toNat % 2 ^ 32 + 16 ≤ (s1.allocation t.partition.val 1).2) ∧
    (copyScene 64 (inShared 96) 1024 8).whenInTurn f (fun s1 t _ x => (x.pair 4).toNat < 2 ^ 32 ∧
      (x.pair 4).toNat + 8 ≤ (s1.allocation t.partition.val t.die.val).2 ∧ (x.pair 10).toNat + 8 ≤ (s1.allocation t.partition.val t.die.val).2 ∧
      (x.pair 10).toNat / 2 ^ 32 = (x.pair 4).toNat / 2 ^ 32) ∧
    (copyScene (BitVec.ofNat 64 (2 ^ 63 + 64)) (inShared 96) (BitVec.ofNat 64 (2 ^ 63 + 1024)) 8).whenInTurn f (fun s1 t _ x =>
      (x.pair 4).toNat / 2 ^ 56 = 128 ∧ ((s1.teams.find? fun y => y.launch == t.launch && y.die == t.die &&
        y.lin == (x.pair 4).toNat / 2 ^ 32 % 2 ^ 24 && !y.frozen).map (·.uid)) = some 1 ∧ 64 + 8 ≤ s1.bound t .shared ∧ 1024 + 8 ≤ s1.bound t .shared) :=
  fun f => ⟨oneTurn (by decide +kernel) _, oneTurn (by decide +kernel) _, oneTurn (by decide +kernel) _⟩

/-- An older put of the group to bytes that a new one touches. -/
def sent : Landing :=
  { id := 5, put := true, launch := 0, partition := 0, srcDie := 0, dstDie := 0, inc := 0, team := none, fromTeam := 1, fromGroup := 0, rel := false,
    after := [], filled := false, parts := [], object := 1024, admitted := false, held := false }

theorem witness_SendsIssue_after :
    let s := { (copyScene 64 (inShared 96) 1024 8).updGroup 1 0 (fun g => { g with issued := 1, ops := [{ copyOp 1 .copyOut (.rcopy { landing := 5, src := 0, dst := 64, left := [(0, 8)] }) with
                 landing := some 5 }] }) with landings := [sent] }
    Solo s fun g x _ _ => 1 ∈ g.priorTo (g.gangMask x.gang) ∧ s.landing? 5 = some sent ∧
      (match g.op? 1 with
       | some a => a.landing == some 5 && spansMeet (s.landingAll a sent) [s.landingSpan sent 68 8, s.landingSpan sent 1024 8]
       | none => false) = true := solo (by decide +kernel)

/-- A put to team 7, which there is not. -/
theorem witness_SendsIssue_target : let s := copyScene (BitVec.ofNat 64 (2 ^ 63 + 7 * 2 ^ 32 + 64)) (inShared 96) (BitVec.ofNat 64 (2 ^ 63 + 7 * 2 ^ 32 + 1024)) 8
    Solo s fun _ x t _ => (x.getS 8).toNat = 8 ∧ (x.pair 4).toNat % 4 = 0 ∧ (x.pair 6).toNat % 4 = 0 ∧ (x.pair 10).toNat % 8 = 0 ∧
      (x.pair 10).toNat / 2 ^ 32 = (x.pair 4).toNat / 2 ^ 32 ∧ (x.pair 4).toNat / 2 ^ 56 = 128 ∧ s.onChipRange t (x.pair 6) 8 = true ∧
      ∀ y ∈ s.teams, y.lin ≠ (x.pair 4).toNat / 2 ^ 32 % 2 ^ 24 := solo (by decide +kernel)

/-- A descriptor of two tiles from tile 5 on, at shared offset 64. -/
def descriptor : List Byte := toLE 8 0x1000 ++ toLE 8 0x2000 ++ toLE 4 5 ++ toLE 4 2 ++ toLE 4 128 ++ toLE 4 0

def streamScene : State :=
  (copyScene (inShared 64) 0 0 0).updTeam 1 fun t => { t with shared := ({} : Memory).write 64 descriptor }

theorem witness_SendsIssue_streams : ∀ f, streamScene.whenInTurn f fun s1 t g x =>
    let read := s1.readChip t g (spaceOf (x.pair 4)).1 (spaceOf (x.pair 4)).2 32
    (x.pair 4).toNat % 32 = 0 ∧ (spaceOf (x.pair 4)).1 = .shared ∧ s1.onChipRange t (x.pair 4) 32 = true ∧ read.any (·.2) = false ∧
    read.map (·.1) = descriptor ∧
    s1.blocked t g (g.priorTo (g.gangMask x.gang)) { slice := x.num, cls := 0, write := false, spans := [s1.chipSpan t (x.pair 4) 32] } = false ∧
    (∀ p ∈ g.ops, p.id ≠ g.nextOp) ∧ g.counter .stream < 63 ∧ (t.stream? (x.pair 4)).isNone = true ∧ t.tokens.length < s1.declared t :=
  fun f => oneTurn (by decide +kernel) _

theorem witness_SendsIssue_relaunches : Ok ((copyScene 0x1000 0 0 0).readGlobal 0 0 .read 0x1000 128) (fun bs => bs.any (·.2) = false) ∧
    Solo (copyScene 0x1000 0 0 0) (fun g x t _ => (x.pair 4).toNat % 64 = 0 ∧ (x.pair 4).toNat + 128 ≤ 2 ^ 57 ∧
      (copyScene 0x1000 0 0 0).blocked t g (g.priorTo (g.gangMask x.gang))
        { slice := x.num, cls := 5, write := false, spans := (copyScene 0x1000 0 0 0).globalSpans t .read (x.pair 4).toNat 128 } = false) :=
  ⟨okay (by decide +kernel), solo (by decide +kernel)⟩

/-! Copies return. -/

theorem witness_CopiesReturn_cover : 0 < 33 ∧ 33 ≤ ([(Spot.chip .shared 0, 20), (.chip .shared 64, 13)].map (·.2)).sum := by decide

/-- A chunk of each engine, which older accesses do not hold back. -/
def someChunk : Chunk := { dst := .chip .shared 64, n := 32, src := .mem [(.chip .scratch 0, 20), (.chip .shared 0, 12)] }
def dataChunk : Chunk := { someChunk with src := .data (List.replicate 32 (1, false)) }

theorem witness_CopiesReturn_chunks : ∀ job ∈ [Job.copy { out := false, dst := inShared 64, src := 0x1000, len := 64, todo := [someChunk] },
      .gather { dst := inShared 64, src := 0x1000, index := inShared 0, rows := 1, rowLen := 32, stride := 32, left := [], todo := [someChunk] },
      .xpand { t := .bf16, rm := 1, sat := false, ftz := false, dst := inShared 0, src := 0x1000, tile := 0, scales := 0, todo := some [dataChunk] }],
    engineTest (engineScene job .copyIn) (fun t g o => o.job == job &&
      !(engineScene job .copyIn).blocked t g o.prior { slice := 0, cls := 1, write := true, spans := (engineScene job .copyIn).chunkSpans t someChunk } &&
      !(engineScene job .copyIn).blocked t g o.prior { slice := 0, cls := 1, write := true, spans := [(engineScene job .copyIn).span t 32 (.chip .shared 64)] }) =
      true := by decide +kernel

/-- An older copy of the group writes the same bytes. -/
theorem witness_CopiesReturn_order :
    let job := Job.copy { out := false, dst := inShared 64, src := 0x1000, len := 64, todo := [someChunk] }
    let s := (engineScene job .copyIn).updGroup 1 0 fun g => { g with ops := copyOp 1 .copyIn job :: g.ops.map fun o => { o with prior := [1] } }
    engineTest s (fun t g o => s.blocked t g o.prior { slice := 0, cls := 1, write := true, spans := s.chunkSpans t someChunk }) = true := by decide +kernel

/-- A copy at a mapped page, at one whose key is not loaded, at one that is not mapped, and at the end of the window. -/
def pageCopy (out : Bool) (va : Nat) : Job :=
  if out then .copy { out := true, dst := BitVec.ofNat 64 va, src := inShared 64, len := 64 }
  else .copy { out := false, dst := inShared 64, src := BitVec.ofNat 64 va, len := 64 }

theorem witness_CopiesReturn_pages : ∀ out ∈ [true, false],
    engineTest (engineScene (pageCopy out 0x1FE0) .copyIn) (fun t _ _ =>
      ((engineScene (pageCopy out 0x1FE0) .copyIn).openPage t.die.val t.partition.val (if out then .write else .read) 0x1FE0 64).isOk) = true ∧
    (let s := { engineScene (pageCopy out 0x1FE0) .copyIn with keys := (engineScene (pageCopy out 0x1FE0) .copyIn).keys.set 5 none }
     engineTest s (fun t _ _ => match s.openPage t.die.val t.partition.val (if out then .write else .read) 0x1FE0 64 with
       | .error f => !f.parks
       | .ok _ => false) = true) ∧
    engineTest (engineScene (pageCopy out 0x5000) .copyIn) (fun t g _ => !g.trapped &&
      match (engineScene (pageCopy out 0x5000) .copyIn).openPage t.die.val t.partition.val (if out then .write else .read) 0x5000 64 with
       | .error .page => true
       | _ => false) = true ∧
    engineTest (engineScene (pageCopy out (2 ^ 57)) .copyIn) (fun _ _ o => o.job == pageCopy out (2 ^ 57)) = true := by decide +kernel

/-- A row of a gather that lies over the end of a page. -/
theorem witness_CopiesReturn_rows :
    let j : GatherJob := { dst := inShared 64, src := 0x0FF0, index := inShared 0, rows := 2, rowLen := 32, stride := 32 }
    let s := engineScene (.gather j) .gather
    engineTest s (fun t g o => let sees := s.seenBy t g o
      o.job == .gather j && j.left[1]? == some 1 && !s.blocked t g o.prior { slice := 0, cls := 1, write := false, spans := [s.span t 4 (.chip .shared 4)] } &&
      !(sees.1.readSpot sees.2.1 sees.2.2 4 (.chip .shared 4)).any (·.2) &&
      (sees.1.runs t.die.val t.partition.val .read (pageFuel 0x0FF0 32) 0x0FF0 32).2.isNone) = true := by decide +kernel

/-- A piece of the source of a put. -/
theorem witness_CopiesReturn_pieces :
    let j : PutJob := { landing := 5, src := inShared 96, dst := 64, left := [(0, 8)] }
    let s := engineScene (.rcopy j) .copyOut
    engineTest s (fun t g o => o.job == .rcopy j && j.left[7 % max 1 j.left.length]? == some (0, 8) &&
      !s.blocked t g o.prior { slice := 0, cls := 2, write := false, spans := [s.chipSpan t (inShared 96) 8] }) = true := by decide +kernel

/-- A tile whose index entry gives a length of 0. -/
theorem witness_VatsReturn_badTile : (match (engineScene (.stream 0) .stream).team? 1 with
    | some t => match t.group? 0 with
      | some g => match (engineScene (.stream 0) .stream).readTile t g 0x1000 0 (inShared 0) with
        | .error (.fault _) => true
        | _ => false
      | none => false
    | none => false) = true := by decide +kernel

/-! Landings. -/

/-- A landing of 96 bytes on die 1, a put of 8 to the scratchpad or to a team. -/
def landing (put : Bool) (team : Option Nat) (held : Bool) (n : Nat) : Landing :=
  { sent with put := put, dstDie := if put then 0 else 1, team := team, filled := true, held := held,
              parts := (List.range ((n + 31) / 32)).map fun i => (64 + 32 * i, List.replicate (min 32 n) (BitVec.ofNat 8 i, false)) }

/-- The barrier object has phase 1, count 7 and 96 bytes pending. -/
def landScene (y : Landing) : State :=
  let s := allotted (whole id)
  { s with landings := [y], mem := s.mem.write (mainAddr 1 (5 * 2 ^ 20 + 1024)) (toLE 8 (2 ^ 63 + 7) ++ toLE 8 96) }

/-- Runs of the first granule, of the last one, and of all three. -/
theorem witness_LandingsArrive : ∀ p ∈ [(1, 64, 32), (1, 128, 32), (3, 64, 96)],
    let y := landing false none false 96
    let s := landScene y
    let run := takeRun p.1 p.2.1 y.parts
    s.landing? 5 = some y ∧ (s.die 1).inc = y.inc ∧ run.1.length = p.2.2 ∧ s.landingDue y p.2.1 p.2.2 = true ∧
    (y.parts.find? fun q => q.1 == p.2.1).isSome = true ∧
    (((s.msg 0 1).writeMain none (mainAddr 1 (s.allocation 0 1).1 + p.2.1) run.1).readMain none (mainAddr 1 (s.allocation 0 1).1 + 1024) 8).map (·.1) =
      toLE 8 (1 * 2 ^ 63 + 7) := by decide +kernel

/-- A put whose bytes are to land, and one whose counter is to rise, in the scratchpad and in a team. -/
theorem witness_LandingsArrive_puts : ∀ held ∈ [true, false], ∀ team ∈ [none, some 1], ∀ n ∈ [8, 0],
    let y := landing true team held n
    let s := landScene y
    s.landing? 5 = some y ∧ (s.die 0).inc = y.inc ∧ s.saved 1 = false ∧ (y.filled && y.parts.isEmpty) = (n == 0) ∧
    (takeRun 1 64 y.parts).1.length = n ∧ s.landingDue y 64 n = true ∧ s.landingDue y y.object 8 = true ∧ s.landingDue y 64 32 = true ∧
    ((s.team? 1).map fun t => (t.die, s.tileBusy t y)) = some (0, false) := by decide +kernel

theorem witness_LandingsArrive_gone : let s := landScene (landing true (some 3) false 8)
    s.saved 3 = false ∧ (s.team? 3).isNone = true := by decide +kernel

/-- Team 3 has been swapped out. -/
def swappedOut : Image :=
  { partition := 0, addr := 0, slot := some 0, digest := 0, generation := 6, revision := 0, counter := 0,
    teams := [({ sceneTeam 8 1 (fun _ x => x) with uid := 3 }, 0)], subs := [], live := true }

theorem witness_LandingsArrive_saved : let s := { landScene (landing true (some 3) false 8) with images := [swappedOut] }
    s.saved 3 = true ∧ (landing true (some 3) false 8).admitted = false := by decide +kernel

end Sys2Proof.Tests
end

section
/-! PROOFS. The short-form lane instructions and the predicate instructions (R199 to R204, R222), when the dependence check
passes and no active lane finds poison. -/

namespace Sys2Proof.Machine

/-! Short forms (R199 to R202): a change of the operation to an equal one, and the compares as shapes of their own. -/

theorem State.lane2_congr (s : State) (o : LaneR) {f r : Word → Word → Word} (h : ∀ a b, f a b = r a b) :
    (.next (s.lane2 o f) : Out) = .next (s.lane2 o r) := by
  rw [show f = r from funext fun a => funext (h a)]

theorem State.lane2i_congr (s : State) (o : LaneI) {f r : Word → Word → Word} (h : ∀ a b, f a b = r a b) :
    (.next (s.lane2i o f) : Out) = .next (s.lane2i o r) := by
  rw [show f = r from funext fun a => funext (h a)]

theorem State.lane1_congr (s : State) (o : LaneU) {f r : Word → Word} (h : ∀ a, f a = r a) :
    (.next (s.lane1 o f) : Out) = .next (s.lane1 o r) := by
  rw [show f = r from funext h]

theorem State.laneCmp_congr (s : State) (o : CmpR) {f r : Word → Word → Bool} (h : ∀ a b, f a b = r a b) :
    (.next (s.laneCmp o f) : Out) = .next (s.laneCmp o r) := by
  rw [show f = r from funext fun a => funext (h a)]

theorem State.laneCmpi_congr (s : State) (o : CmpI) {f r : Word → Word → Bool} (h : ∀ a b, f a b = r a b) :
    (.next (s.laneCmpi o f) : Out) = .next (s.laneCmpi o r) := by
  rw [show f = r from funext fun a => funext (h a)]

theorem State.laneCmp_writes (s : State) (o : CmpR) (f : Word → Word → Bool) (hu : s.unmarked [.v o.a, .v o.b] [] = true)
    (hc : s.cleanLanes o.g [.v o.a, .v o.b] = true) :
    s.laneCmp o f = s.laneWrites o.g fun g x j l => l.setPred o.pd (f (s.reg g x j o.a) (s.reg g x j o.b)) :=
  State.laneFixed_writes s o.g _ _
    (fun g x _ l => { preds := [(o.pd, f (l.get (x.phys g.budget o.a)) (l.get (x.phys g.budget o.b)))] })
    hu hc (fun _ _ _ _ => rfl)

theorem State.laneCmpi_writes (s : State) (o : CmpI) (f : Word → Word → Bool) (hu : s.unmarked [.v o.a] [] = true)
    (hc : s.cleanLanes o.g [.v o.a] = true) :
    s.laneCmpi o f = s.laneWrites o.g fun g x j l => l.setPred o.pd (f (s.reg g x j o.a) o.imm) :=
  State.laneFixed_writes s o.g _ _ (fun g x _ l => { preds := [(o.pd, f (l.get (x.phys g.budget o.a)) o.imm)] })
    hu hc (fun _ _ _ _ => rfl)

/-- Nothing named is nothing marked. -/
theorem State.unmarked_nil (s : State) : s.unmarked [] [] = true := by
  simp [State.unmarked]

theorem State.lanePred_writes (s : State) (gd : Guard) (pd : PReg) (f : Lane → Bool) :
    s.lanePred gd pd f = s.laneWrites gd fun g x j l => l.setPred pd (f ((s.was g x).lane j)) :=
  State.laneFixed_writes s gd [] [] (fun _ _ _ l => { preds := [(pd, f l)] }) s.unmarked_nil (s.cleanLanes_nil gd)
    (fun _ _ _ _ => rfl)

/-- An instruction that writes one register and reads none. -/
theorem State.laneFixed_sets (s : State) (gd : Guard) (d : LReg) (v : Slice → Fin 4 → Lane → Word) (hu : s.unmarked [] [.v d] = true) :
    s.laneFixed gd [] [.v d] (fun g x j l => .ok { regs := [(x.phys g.budget d, v x j l)] }) =
      s.laneWrites gd fun g x j l => l.put (s.physOf g x d) (v (s.was g x) j ((s.was g x).lane j)) false :=
  State.laneFixed_writes s gd [] _ (fun g x j l => { regs := [(x.phys g.budget d, v x j l)] }) hu (s.cleanLanes_nil gd)
    (fun _ _ _ _ => rfl)

/-! Operations on words. -/

theorem neg_val (a : Word) : -a = BitVec.ofInt 32 (-a.toInt) := by
  apply BitVec.eq_of_toInt_eq
  rw [BitVec.toInt_neg, BitVec.toInt_ofInt]

/-- A field of bits as a slice of the word. -/
theorem bits_val {w : Nat} (x : BitVec w) (lo n : Nat) : bits x lo n = (x.extractLsb' lo n).toNat := by
  simp [bits, Nat.shiftRight_eq_div_pow]

/-- Two words put together, as a number. -/
theorem toNat_append_val {m n : Nat} (x : BitVec m) (y : BitVec n) : (x ++ y).toNat = x.toNat * 2 ^ n + y.toNat := by
  rw [BitVec.toNat_append, ← Nat.shiftLeft_add_eq_or_of_lt y.isLt, Nat.shiftLeft_eq]

theorem pack_val (a b : Word) :
    BitVec.ofNat 32 (bits b 0 16 * 65536 + bits a 0 16) = b.extractLsb' 0 16 ++ a.extractLsb' 0 16 := by
  apply BitVec.eq_of_toNat_eq
  have ha := (a.extractLsb' 0 16).isLt
  have hb := (b.extractLsb' 0 16).isLt
  rw [bits_val, bits_val, toNat_append_val, BitVec.toNat_ofNat]
  omega

theorem bne_val (a b : Word) : (a != b) = decide (a ≠ b) := (decide_not (p := a = b)).symm

/-! Predicates of a lane (R143, R203). -/

theorem Lane.pred_val (l : Lane) (k : PReg) : l.pred k = if k = 7 then true else l.p.getLsbD k.val := by
  by_cases h : k = 7 <;> simp [Lane.pred, bit, h]

theorem Lane.ptoi_val (l : Lane) (k : PReg) :
    (if l.pred k = true then (1 : Word) else 0) = if k = 7 ∨ l.p.getLsbD k.val = true then 1 else 0 := by
  simp only [Lane.pred, bit, Bool.or_eq_true, beq_iff_eq]

/-- Settles O1: each short form is a shared shape of an operation, whose value the statement says. -/
theorem laneBinary : Obligations.LaneBinary := by
  unfold Obligations.LaneBinary
  refine ⟨fun s o hu hc p hp => ?_, fun s o hu hc p hp => ?_⟩
  · rw [← State.lane2_writes s o p.2 hu hc]
    simp only [List.mem_cons, List.not_mem_nil, or_false] at hp
    rcases hp with rfl | rfl | rfl | rfl | rfl | rfl | rfl | rfl | rfl | rfl | rfl | rfl | rfl | rfl | rfl | rfl | rfl | rfl
    · exact s.lane2_congr o add_val
    · exact s.lane2_congr o sub_val
    · exact s.lane2_congr o mul_val
    · exact s.lane2_congr o mulhiS_val
    · exact s.lane2_congr o mulhiU_val
    · exact s.lane2_congr o minS_val
    · exact s.lane2_congr o maxS_val
    · exact s.lane2_congr o minU_val
    · exact s.lane2_congr o maxU_val
    · exact rfl
    · exact rfl
    · exact rfl
    · exact rfl
    · exact s.lane2_congr o shlW_val
    · exact s.lane2_congr o shrW_val
    · exact s.lane2_congr o sarW_val
    · exact rfl
    · exact s.lane2_congr o pack_val
  · rw [← State.lane2i_writes s o p.2 hu hc]
    simp only [List.mem_cons, List.not_mem_nil, or_false] at hp
    rcases hp with rfl | rfl | rfl | rfl | rfl | rfl | rfl | rfl | rfl | rfl | rfl | rfl | rfl | rfl | rfl | rfl | rfl
    · exact s.lane2i_congr o add_val
    · exact s.lane2i_congr o sub_val
    · exact s.lane2i_congr o mul_val
    · exact s.lane2i_congr o mulhiS_val
    · exact s.lane2i_congr o mulhiU_val
    · exact s.lane2i_congr o minS_val
    · exact s.lane2i_congr o maxS_val
    · exact s.lane2i_congr o minU_val
    · exact s.lane2i_congr o maxU_val
    · exact rfl
    · exact rfl
    · exact rfl
    · exact rfl
    · exact s.lane2i_congr o shlW_val
    · exact s.lane2i_congr o shrW_val
    · exact s.lane2i_congr o sarW_val
    · exact rfl

/-- Settles O2: the one-operand forms by their shared shape; MOV of an immediate, PTOI and LID write one register and read none. -/
theorem laneUnary : Obligations.LaneUnary := by
  unfold Obligations.LaneUnary
  refine ⟨fun s o hu hc p hp => ?_, fun s gd d hu => ⟨fun imm => ?_, fun pa => ?_, ?_, ?_, ?_⟩⟩
  · rw [← State.lane1_writes s o p.2 hu hc]
    simp only [List.mem_cons, List.not_mem_nil, or_false] at hp
    rcases hp with rfl | rfl | rfl | rfl | rfl | rfl
    · exact s.lane1_congr o popcW_val
    · exact s.lane1_congr o clzW_val
    · exact s.lane1_congr o brevW_val
    · exact rfl
    · exact s.lane1_congr o absW_val
    · exact s.lane1_congr o neg_val
  · exact congrArg Host.Outcome.next (s.laneFixed_sets gd d (fun _ _ _ => imm) hu)
  · refine (congrArg Host.Outcome.next (s.laneFixed_sets gd d (fun _ _ l => if l.pred pa then 1 else 0) hu)).trans ?_
    simp only [Lane.ptoi_val]
  · exact congrArg Host.Outcome.next (s.laneFixed_sets gd d (lidValue .lane) hu)
  · exact congrArg Host.Outcome.next (s.laneFixed_sets gd d (lidValue .plane) hu)
  · exact congrArg Host.Outcome.next (s.laneFixed_sets gd d (lidValue .position) hu)

/-- Settles O3: a compare is a shared shape of a relation; a predicate instruction reads its lane's predicates as they were. -/
theorem laneTests : Obligations.LaneTests := by
  unfold Obligations.LaneTests
  refine ⟨fun s gd pd a b imm p hp => ?_, fun s gd pd pa pb => ?_⟩
  · simp only [List.mem_cons, List.not_mem_nil, or_false] at hp
    refine ⟨fun hu hc => ?_, fun hu hc => ?_⟩
    · rw [← State.laneCmp_writes s ⟨gd, pd, a, b⟩ p.2.2 hu hc]
      rcases hp with rfl | rfl | rfl | rfl | rfl | rfl | rfl | rfl
      · exact rfl
      · exact s.laneCmp_congr _ bne_val
      · exact rfl
      · exact rfl
      · exact rfl
      · exact rfl
      · exact rfl
      · exact rfl
    · rw [← State.laneCmpi_writes s ⟨gd, pd, a, imm⟩ p.2.2 hu hc]
      rcases hp with rfl | rfl | rfl | rfl | rfl | rfl | rfl | rfl
      · exact rfl
      · exact s.laneCmpi_congr _ bne_val
      · exact rfl
      · exact rfl
      · exact rfl
      · exact rfl
      · exact rfl
      · exact rfl
  · simp only [← Lane.pred_val]
    refine ⟨?_, ?_, ?_, ?_, ?_⟩
    all_goals exact congrArg Host.Outcome.next (s.lanePred_writes gd pd _)

end Sys2Proof.Machine
end

section
/-! PROOFS. The typed lane instructions (R191, R205 to R213) and DP4 (R216), when the dependence check passes and no active lane
finds poison. -/

namespace Sys2Proof.Machine

/-! Typed operations (R191, R205 to R213). -/

theorem ofNat_wrapTo (n : Nat) (z : Int) : BitVec.ofNat n (wrapTo n z) = BitVec.ofInt n z := by
  apply BitVec.eq_of_toNat_eq
  rw [BitVec.toNat_ofNat, wrapTo, ← BitVec.toNat_ofInt, Nat.mod_eq_of_lt (BitVec.ofInt n z).isLt]

/-- A lane that receives a result of type t (R191). -/
theorem State.resOf_apply (s : State) (g : Group) (x : Slice) (t : ETy) (d : LReg) (r : Nat × Exc) (l : Lane) :
    (resOf (s.was g x) (s.cur.source g).budget t d r).apply l = s.putVal g x t d r.1 l := by
  unfold resOf LaneRes.apply State.putVal State.valRegs regOf
  by_cases h : t.is64 = true
  · simp only [h, if_true]
    rfl
  · simp only [h, Bool.false_eq_true, if_false, ofNat_wrapTo]
    rfl

/-- A fixed-latency instruction whose active lanes find no poison and give a result of type t. -/
theorem State.laneFixed_results (s : State) (gd : Guard) (rd wr : List Reg) (t : ETy) (d : LReg)
    (r : Group → Slice → Fin 4 → Lane → Nat × Exc) (hu : s.unmarked rd wr = true) (hc : s.cleanLanes gd rd = true) :
    s.laneFixed gd rd wr (fun g x j l => .ok (resOf x g.budget t d (r g x j l))) =
      s.laneTyped gd (fun g x j l => s.putVal g x t d (r (s.cur.source g) (s.was g x) j ((s.was g x).lane j)).1 l)
        (fun g x j => (r (s.cur.source g) (s.was g x) j ((s.was g x).lane j)).2) := by
  rw [State.laneFixed_typed s gd rd wr (fun g x j l => resOf x g.budget t d (r g x j l)) hu hc]
  simp only [State.resOf_apply]
  rfl

theorem State.typed2_results (s : State) (gd : Guard) (t : ETy) (d a b : LReg) (f : Word → Nat → Nat → Nat × Exc)
    (hu : s.unmarked (vRegs t a ++ vRegs t b) (vRegs t d) = true) (hc : s.cleanLanes gd (vRegs t a ++ vRegs t b) = true) :
    s.typed2 gd t d a b f =
      s.laneTyped gd (fun g x j l => s.putVal g x t d (f (s.cur.source g).mode (s.val g x j t a) (s.val g x j t b)).1 l)
        (fun g x j => (f (s.cur.source g).mode (s.val g x j t a) (s.val g x j t b)).2) :=
  s.laneFixed_results gd _ _ t d (fun g x _ l => f g.mode (x.laneRaw g.budget t a l) (x.laneRaw g.budget t b l)) hu hc

theorem State.typed1_results (s : State) (gd : Guard) (t u : ETy) (d a : LReg) (f : Word → Nat → Nat × Exc)
    (hu : s.unmarked (vRegs u a) (vRegs t d) = true) (hc : s.cleanLanes gd (vRegs u a) = true) :
    s.typed1 gd t u d a f =
      s.laneTyped gd (fun g x j l => s.putVal g x t d (f (s.cur.source g).mode (s.val g x j u a)).1 l)
        (fun g x j => (f (s.cur.source g).mode (s.val g x j u a)).2) :=
  s.laneFixed_results gd _ _ t d (fun g x _ l => f g.mode (x.laneRaw g.budget u a l)) hu hc

theorem State.typedShift_results (s : State) (o : TypedP) (left : Bool)
    (hu : s.unmarked (vRegs o.t o.a ++ [.v o.b]) (vRegs o.t o.d) = true)
    (hc : s.cleanLanes o.g (vRegs o.t o.a ++ [.v o.b]) = true) :
    s.typedShift o left =
      s.laneTyped o.g (fun g x j l =>
        s.putVal g x o.t o.d (shiftOp left o.t (s.val g x j o.t o.a) (s.reg g x j o.b).toNat) l) (fun _ _ _ => 0) :=
  s.laneFixed_results o.g _ _ o.t o.d
    (fun g x _ l => (shiftOp left o.t (x.laneRaw g.budget o.t o.a l) (l.get (x.phys g.budget o.b)).toNat, 0)) hu hc

/-! DP4 (R163, R216). -/

theorem State.onlyJ6_onJenben5 (s : State) (k : State → State) {t : Team} (ht : s.team? s.cur.team = some t) (hd : 4 ≤ t.die.val) :
    s.onlyJ6 k = s.raiseGang s.cur.plane { cls := .unimplementedGeneration } := by
  have h : ¬ t.die.val < 4 := by omega
  simp [State.onlyJ6, State.onJenben5, ht, Config.generation, h]

theorem State.onlyJ6_onJenben6 (s : State) (k : State → State) {t : Team} (ht : s.team? s.cur.team = some t) (hd : t.die.val < 4) :
    s.onlyJ6 k = k s := by
  simp [State.onlyJ6, State.onJenben5, ht, Config.generation, hd]

/-- A bit vector read as a signed number. -/
theorem signed_toNat {n : Nat} (x : BitVec n) (h : 0 < n) : signed n x.toNat = x.toInt := by
  have hp : 2 ^ n = 2 * 2 ^ (n - 1) := by rw [← Nat.pow_succ', Nat.succ_eq_add_one, Nat.sub_add_cancel h]
  rw [BitVec.toInt_eq_toNat_cond, signed, Nat.mod_eq_of_lt x.isLt]
  simp only [hp, Nat.mul_lt_mul_left (show 0 < 2 by decide)]

theorem ofInt_signed (m : Nat) : BitVec.ofInt 32 (signed 32 m) = BitVec.ofNat 32 m := by
  have h : signed 32 m = (BitVec.ofNat 32 m).toInt := by
    rw [← signed_toNat _ (by decide), BitVec.toNat_ofNat, signed, signed, Nat.mod_mod]
  rw [h, BitVec.ofInt_toInt]

/-- Byte i of a word as an element of DP4's type. -/
def dp4Byte (u : ETy) (w : Word) (i : Nat) : Int :=
  if u = .i8 then (w.extractLsb' (8 * i) 8).toInt else ((w.extractLsb' (8 * i) 8).toNat : Int)

theorem intOf_byte {u : ETy} (hu : u ∈ [ETy.i8, ETy.n8]) (w : Word) (i : Nat) : intOf u (bits w (8 * i) 8) = dp4Byte u w i := by
  simp only [List.mem_cons, List.not_mem_nil, or_false] at hu
  rw [bits_val]
  rcases hu with rfl | rfl
  · exact signed_toNat _ (by decide)
  · exact congrArg Nat.cast (Nat.mod_eq_of_lt (w.extractLsb' (8 * i) 8).isLt)

theorem dp4Sum_val {u : ETy} (hu : u ∈ [ETy.i8, ETy.n8]) (a b c : Word) :
    dp4Sum u a b c = dp4Byte u a 0 * dp4Byte u b 0 + dp4Byte u a 1 * dp4Byte u b 1 + dp4Byte u a 2 * dp4Byte u b 2 +
      dp4Byte u a 3 * dp4Byte u b 3 + c.toInt := by
  unfold dp4Sum
  simp only [intOf_byte hu, signed_toNat c (by decide)]
  have hsum : ∀ z p q r t : Int, z + p + q + r + t = p + q + r + t + z := by omega
  exact hsum c.toInt _ _ _ _

/-- What a register receives of an integer narrowed to 32 bits (R43). -/
theorem narrow_i32_val (sat : Bool) (z : Int) :
    BitVec.ofInt 32 (intOf .i32 (narrow .i32 sat z)) =
      BitVec.ofInt 32 (if sat = true then max (-2147483648) (min 2147483647 z) else z) := by
  show BitVec.ofInt 32 (signed 32 (wrapTo 32 (if sat = true then max (-2147483648) (min 2147483647 z) else z))) = _
  rw [ofInt_signed, ofNat_wrapTo]

theorem State.exec_dp4_onJenben6 (s : State) (o : Dp4Args) {t : Team} (ht : s.team? s.cur.team = some t) (hd : t.die.val < 4)
    (hu : s.unmarked [.v o.a, .v o.b, .v o.c] [.v o.d] = true) (hc : s.cleanLanes o.g [.v o.a, .v o.b, .v o.c] = true) :
    exec (.dp4 o) s = .next (s.laneWrites o.g fun g x j l =>
      l.put (s.physOf g x o.d) (BitVec.ofInt 32 (intOf .i32 (narrow .i32 (o.sat || modeSat (s.cur.source g).mode)
        (dp4Sum o.u (s.reg g x j o.a) (s.reg g x j o.b) (s.reg g x j o.c))))) false) := by
  show Host.Outcome.next (s.onlyJ6 _) = _
  rw [State.onlyJ6_onJenben6 s _ ht hd,
    s.laneFixed_results o.g _ _ .i32 o.d (fun g x _ l => (narrow .i32 (o.sat || modeSat g.mode)
      (dp4Sum o.u (l.get (x.phys g.budget o.a)) (l.get (x.phys g.budget o.b)) (l.get (x.phys g.budget o.c))), 0)) hu hc,
    State.laneTyped_quiet]
  rfl

/-- Settles O4: the typed shapes give the operation's result; DP4's sum of the bytes' products, narrowed to 32 bits. -/
theorem typedResults : Obligations.TypedResults := by
  unfold Obligations.TypedResults
  refine ⟨fun s gd t u rm sat d a b c => ⟨fun hu hc => ⟨?_, ?_, ?_, ?_, ?_⟩, fun hu hc => ?_, fun hu hc => ⟨?_, ?_⟩,
    fun hu hc => ⟨?_, ?_, ?_⟩, fun hu hc => ?_, fun hu hc => ?_⟩,
    fun s gd t cc pd sat d a b c => ⟨fun hu hc => ?_, fun team ht v hv => ⟨fun hd => ?_, fun hd hu hc => ?_⟩⟩⟩
  · exact congrArg Host.Outcome.next (s.typed2_results gd t d a b (arith .add t rm sat) hu hc)
  · exact congrArg Host.Outcome.next (s.typed2_results gd t d a b (arith .sub t rm sat) hu hc)
  · exact congrArg Host.Outcome.next (s.typed2_results gd t d a b (arith .mul t rm sat) hu hc)
  · exact congrArg Host.Outcome.next (s.typed2_results gd t d a b (minMax true t) hu hc)
  · exact congrArg Host.Outcome.next (s.typed2_results gd t d a b (minMax false t) hu hc)
  · exact congrArg Host.Outcome.next (s.laneFixed_results gd _ _ t d (fun g x _ l =>
      madOp t rm sat g.mode (x.laneRaw g.budget t a l) (x.laneRaw g.budget t b l) (x.laneRaw g.budget t c l)) hu hc)
  · exact congrArg Host.Outcome.next (s.typedShift_results ⟨gd, t, d, a, b⟩ true hu hc)
  · exact congrArg Host.Outcome.next (s.typedShift_results ⟨gd, t, d, a, b⟩ false hu hc)
  · exact congrArg Host.Outcome.next (s.typed1_results gd t t d a (negOp t sat) hu hc)
  · exact congrArg Host.Outcome.next (s.typed1_results gd t t d a (absOp t sat) hu hc)
  · exact congrArg Host.Outcome.next (s.typed1_results gd t t d a (rndiOp t rm) hu hc)
  · exact congrArg Host.Outcome.next (s.typed1_results gd .n32 t d a (fun _ v => (fclassOp t v, 0)) hu hc)
  · exact congrArg Host.Outcome.next (s.typed1_results gd t u d a (cvtOp t u rm sat) hu hc)
  · exact congrArg Host.Outcome.next (s.laneFixed_typed gd _ _ (fun g x _ l =>
      { preds := [(pd, (setCond cc t g.mode (x.laneRaw g.budget t a l) (x.laneRaw g.budget t b l)).1)],
        exc := (setCond cc t g.mode (x.laneRaw g.budget t a l) (x.laneRaw g.budget t b l)).2 }) hu hc)
  · exact congrArg Host.Outcome.next (s.onlyJ6_onJenben5 _ ht hd)
  · rw [State.exec_dp4_onJenben6 s ⟨gd, v, sat, d, a, b, c⟩ ht hd hu hc]
    simp only [narrow_i32_val, dp4Sum_val hv]
    rfl

end Sys2Proof.Machine
end

section
/-! PROOFS. The permutes (R217 to R221), when the dependence check passes and every lane that may be read is in the gang and
holds no poison. -/

namespace Sys2Proof.Machine

/-! The slices of the gang and the lanes of the pass. -/

/-- Slice x of group g belongs to the issuing gang. -/
def State.Issues (s : State) (g : Group) (x : Slice) : Prop :=
  ∃ t ∈ s.teams, t.uid = s.cur.team ∧ g ∈ t.groups ∧ x ∈ g.slices ∧ x.inGang s.cur.gang = true

theorem State.Issues.of_gangAll {s : State} {g : Group} {x : Slice} (hi : s.Issues g x) {p : Group → Slice → Bool}
    (h : s.gangAll p = true) : p g x = true := by
  obtain ⟨t, ht, hu, hg, hx, hx'⟩ := hi
  exact State.gangAll_mem h ht hu hg hx hx'

theorem mem_lanes4 : ∀ j : Fin 4, j ∈ lanes4 := by decide

/-- A clean active lane finds no poison in a register named. -/
theorem State.Issues.not_poisoned {s : State} {g : Group} {x : Slice} (hi : s.Issues g x) {gd : Guard} {b : LReg} {j : Fin 4}
    (hc : s.cleanLanes gd [.v b] = true) (ha : s.active gd g x j = true) :
    ((s.was g x).lane j).poisoned (s.physOf g x b) = false := by
  simpa [ha] using List.all_eq_true.mp (hi.of_gangAll hc) j (mem_lanes4 j)

theorem Group.outcomes_congr (s : State) (gd : Guard) (rd : List Reg) {f f' : LaneFn} (g : Group) (x : Slice)
    (h : ∀ j, s.active gd g x j = true → f (s.cur.source g) (s.was g x) j ((s.was g x).lane j) =
      f' (s.cur.source g) (s.was g x) j ((s.was g x).lane j)) :
    g.outcomes s.cur gd rd f x = g.outcomes s.cur gd rd f' x := by
  funext j
  show laneOutcome s.cur gd rd f (s.cur.source g) (s.was g x) j = laneOutcome s.cur gd rd f' (s.cur.source g) (s.was g x) j
  unfold laneOutcome
  simp only [State.active_eq]
  by_cases ha : s.active gd g x j = true
  · simp only [ha, h j ha]
  · simp only [ha, Bool.false_eq_true, if_false]

/-- What an instruction computes matters for the active lanes of the gang alone. -/
theorem State.laneFixed_congr (s : State) (gd : Guard) (rd wr : List Reg) {f f' : LaneFn}
    (h : ∀ g x, s.Issues g x → ∀ j, s.active gd g x j = true → f (s.cur.source g) (s.was g x) j ((s.was g x).lane j) =
      f' (s.cur.source g) (s.was g x) j ((s.was g x).lane j)) (hu : s.unmarked rd wr = true) :
    s.laneFixed gd rd wr f = s.laneFixed gd rd wr f' := by
  unfold State.laneFixed
  rw [State.checked_unmarked _ _ _ _ hu, State.checked_unmarked _ _ _ _ hu]
  refine State.updTeam_congr fun t ht htu => Team.mapGroups_congr fun g hg => ?_
  have ho : ∀ x ∈ g.slices, x.inGang s.cur.gang = true → g.outcomes s.cur gd rd f x = g.outcomes s.cur gd rd f' x :=
    fun x hx hi => Group.outcomes_congr s gd rd g x (h g x ⟨t, ht, htu, hg, hx, hi⟩)
  have he : g.passExc s.cur (g.outcomes s.cur gd rd f) = g.passExc s.cur (g.outcomes s.cur gd rd f') := by
    refine foldl_congr_mem fun x hx e => ?_
    obtain ⟨hx, hi⟩ : x ∈ g.slices ∧ x.inGang s.cur.gang = true := by simpa [Group.inCur] using hx
    rw [ho x hx hi]
  unfold Group.fixedPass
  simp only [he]
  congr 1
  refine List.map_congr_left fun x hx => ?_
  by_cases hi : x.inGang s.cur.gang = true
  · rw [ho x hx hi]
  · simp only [hi, Bool.false_eq_true, if_false]

/-- The group as it stood before the first pass is its own source. -/
theorem Cur.source_source (c : Cur) (g : Group) : c.source (c.source g) = c.source g := by
  unfold Cur.source
  by_cases hf : c.first = true
  · simp only [hf, if_true]
  · simp only [hf, Bool.false_eq_true, if_false]
    cases h : c.before.find? (·.num == g.num) with
    | none => simp [h]
    | some g0 =>
      have hn : g0.num = g.num := by simpa using List.find?_some h
      simp [hn, h]

theorem State.laneOf_source (s : State) (g : Group) (a : LReg) (n : Nat) : s.laneOf (s.cur.source g) a n = s.laneOf g a n := by
  simp only [State.laneOf, Cur.source_source]

theorem State.leadOf_source (s : State) (gd : Guard) (g : Group) (b : LReg) : s.leadOf gd (s.cur.source g) b = s.leadOf gd g b := by
  simp only [State.leadOf, Cur.source_source]

/-! Values of other lanes (R217). -/

/-- In a group whose slices are all open, a lane is read without a fault. -/
theorem sourceLane_open {s : State} {a : LReg} (ho : s.openLanes [a] = true) {g : Group} {x : Slice} (hi : s.Issues g x) (n : Nat) :
    sourceLane (s.cur.source g) s.cur.gang a n = .ok (s.laneOf g a n) := by
  have hg := List.all_eq_true.mp (hi.of_gangAll ho)
  unfold sourceLane State.laneOf
  cases hy : (s.cur.source g).slice? (n / 4) with
  | none => rfl
  | some y =>
    have hs := hg y (List.mem_of_find?_eq_some hy)
    by_cases he : y.exited = true
    · simp only [he, if_true]
    · simp only [he, Bool.false_or, Bool.and_eq_true, beq_iff_eq, List.all_cons, List.all_nil, Bool.and_true,
        List.all_eq_true, Bool.not_eq_true'] at hs
      obtain ⟨hgang, hclean⟩ := hs
      have hp : (y.lane (Fin.ofNat 4 n)).poisoned (y.phys (s.cur.source g).budget a) = false := hclean _ (mem_lanes4 _)
      simp only [he, hgang, hp, ne_eq, not_true, Bool.false_eq_true, if_false]
      rfl

/-- An instruction whose active lanes each read register a of a lane of their group. -/
theorem State.permute_writes (s : State) (gd : Guard) (wr : List Reg) (d a : LReg) (f : LaneFn)
    (n : Group → Slice → Fin 4 → Lane → Nat) (hu : s.unmarked [] wr = true) (ho : s.openLanes [a] = true)
    (hf : ∀ g x, s.Issues g x → ∀ j, s.active gd g x j = true → f (s.cur.source g) (s.was g x) j ((s.was g x).lane j) =
      permuted (s.cur.source g) s.cur.gang (s.was g x) d a (n (s.cur.source g) (s.was g x) j ((s.was g x).lane j))) :
    s.laneFixed gd [] wr f = s.laneWrites gd fun g x j l =>
      l.put (s.physOf g x d) (s.laneOf g a (n (s.cur.source g) (s.was g x) j ((s.was g x).lane j))) false := by
  rw [s.laneFixed_congr gd [] wr
      (f' := fun g x j l => .ok { regs := [(x.phys g.budget d, s.laneOf g a (n g x j l))] }) (fun g x hi j ha => ?_) hu,
    State.laneFixed_writes s gd [] wr _ hu (s.cleanLanes_nil gd) (fun _ _ _ _ => rfl)]
  · simp only [State.laneOf_source]
    rfl
  · rw [hf g x hi j ha, permuted, sourceLane_open ho hi, State.laneOf_source]

/-- A dependence check that passes for all the registers passes for fewer. -/
theorem State.unmarked_mono {s : State} {rd rd' wr wr' : List Reg} (h : s.unmarked rd wr = true) (hr : rd' ⊆ rd) (hw : wr' ⊆ wr) :
    s.unmarked rd' wr' = true := by
  simp only [State.unmarked, Bool.or_eq_true, List.all_eq_true, Bool.and_eq_true] at h ⊢
  exact h.imp id fun h m hm => (h m hm).imp id fun ⟨h1, h2⟩ => ⟨fun r hx => h1 r (hr hx), fun r hx => h2 r (hw hx)⟩

/-! The lead lane of BCAST and ROT (R220). -/

theorem fGuard_val (w : Word) : fGuard w.toNat = { pred := (w.extractLsb' 2 3).toFin, neg := w.getLsbD 1 } := by
  have hp : pred3 w.toNat 2 = (w.extractLsb' 2 3).toFin := by
    apply Fin.ext
    simp [pred3, fld, Nat.shiftRight_eq_div_pow]
  have hn : (fld w.toNat 1 1 == 1) = w.getLsbD 1 := by
    rw [BitVec.getLsbD, Nat.testBit_eq_decide_div_mod_eq]
    rfl
  rw [fGuard, hp, hn]

theorem fB_val (w : Word) : fB w.toNat = (w.extractLsb' 5 6).toFin := by
  apply Fin.ext
  simp [fB, reg6, fld, Nat.shiftRight_eq_div_pow]

theorem Slice.passFields_val (s : State) (o : LaneR) (y : Slice) (j : Fin 4) :
    y.passFields s.cur.plane o j = s.passOf o.g o.b y j := by
  unfold Slice.passFields State.passOf
  by_cases hp : (y.lane j).pl = s.cur.plane
  · simp only [hp, if_true]
  · simp only [hp, if_false]
    cases y.wordAt (y.lane j).pl with
    | none => rfl
    | some w => simp only [fGuard_val, fB_val]

/-- The lead lane's value, when that is no poison. -/
theorem leadValue_val (s : State) (o : LaneR) (g : Group) (h : (s.leadOf o.g g o.b).2 = false) :
    leadValue (s.cur.source g) s.cur o = some (s.leadOf o.g g o.b).1 := by
  unfold leadValue leadLane
  simp only [Slice.passFields_val]
  unfold State.leadOf at h ⊢
  simp only [Slice.inGang, bit, Lane.guard] at h ⊢
  split at h
  · rename_i p hp
    simp only [hp, Option.map_some]
    have h' : (p.1.lane p.2).poisoned (p.1.phys (s.cur.source g).budget (s.passOf o.g o.b p.1 p.2).2) = false := h
    simp only [h', Bool.false_eq_true, if_false]
    rfl
  · rename_i hp
    simp only [hp, Option.map_none]

/-- BCAST and ROT when the lead lane's value is no poison. -/
theorem State.spread_writes (s : State) (o : LaneR) (f : Nat → Nat → Nat → Nat) (hu : s.unmarked [.v o.a, .v o.b] [.v o.d] = true)
    (ho : s.openLanes [o.a] = true) (hl : s.gangAll (fun g _ => !(s.leadOf o.g g o.b).2) = true) :
    s.checked [.v o.a, .v o.b] [] (fun s => s.spread o f) = s.laneWrites o.g fun g x j l =>
      l.put (s.physOf g x o.d) (s.laneOf g o.a (f (4 * (s.was g x).num + j.val) (s.leadOf o.g g o.b).1.toNat
        (s.cur.source g).width % (s.cur.source g).width)) false := by
  rw [State.checked_unmarked s _ _ _ (State.unmarked_mono hu (List.Subset.refl _) (List.nil_subset _))]
  unfold State.spread
  rw [s.permute_writes o.g _ o.d o.a _
    (fun g x j _ => f (4 * x.num + j.val) (s.leadOf o.g g o.b).1.toNat g.width % g.width)
    (State.unmarked_mono hu (List.nil_subset _) (List.Subset.refl _)) ho fun g x hi j _ => ?_]
  · simp only [State.leadOf_source]
  · have hp : (s.leadOf o.g g o.b).2 = false := by simpa using hi.of_gangAll hl
    simp only [leadValue_val s o g hp, State.leadOf_source]

/-! PRMT (R221). -/

theorem pairOf_val (a b : Word) : pairOf a b = b ++ a := by
  apply BitVec.eq_of_toNat_eq
  have ha := a.isLt
  have hb := b.isLt
  rw [toNat_append_val, pairOf, BitVec.toNat_ofNat]
  omega

/-- Byte k of PRMT's result: a byte of the pair, or its sign. -/
def prmtPick (a b c : Word) (k : Nat) : BitVec 8 :=
  let sel := (c.extractLsb' (4 * k) 4).toNat
  let byte := (b ++ a).extractLsb' (8 * (sel % 8)) 8
  if sel < 8 then byte else if byte.msb then 0xFF#8 else 0#8

theorem prmtByte_val (a b c : Word) (k : Nat) : prmtByte a b c k = (prmtPick a b c k).toNat := by
  unfold prmtByte prmtPick
  simp only [bits_val, pairOf_val, BitVec.msb_eq_decide, decide_eq_true_eq]
  by_cases hs : (c.extractLsb' (4 * k) 4).toNat < 8
  · rw [if_neg (Nat.not_le.mpr hs), if_pos hs]
  · rw [if_pos (Nat.not_lt.mp hs), if_neg hs, apply_ite BitVec.toNat]
    rfl

/-- Four bytes put together. -/
theorem ofNat_bytes (b0 b1 b2 b3 : BitVec 8) :
    BitVec.ofNat 32 (b0.toNat + 256 * b1.toNat + 65536 * b2.toNat + 16777216 * b3.toNat) = b3 ++ b2 ++ b1 ++ b0 := by
  apply BitVec.eq_of_toNat_eq
  have h0 := b0.isLt
  have h1 := b1.isLt
  have h2 := b2.isLt
  have h3 := b3.isLt
  simp only [toNat_append_val, BitVec.toNat_ofNat]
  omega

theorem prmtWord_val (a b c : Word) :
    prmtWord a b c = prmtPick a b c 3 ++ prmtPick a b c 2 ++ prmtPick a b c 1 ++ prmtPick a b c 0 := by
  simp only [prmtWord, prmtByte_val, ofNat_bytes]

/-! SWAP (R219). -/

theorem State.swapLegal_iff (s : State) (m : Nat) : s.swapLegal m = true ↔ 1 ≤ m ∧ ∀ p ∈ s.members, m < p.1.width := by
  simp [State.swapLegal]

theorem State.exec_swap_illegal (s : State) (o : SwapArgs) (h : s.swapLegal o.m.val = false) :
    exec (.swap o) s = .next (s.raiseGang s.cur.plane { cls := .illegalEncoding, reason := 0xE }) := by
  show Host.Outcome.next (if (!s.swapLegal o.m.val) = true then _ else _) = _
  simp only [h, Bool.not_false, if_true]

theorem State.exec_swap_legal (s : State) (o : SwapArgs) (h : s.swapLegal o.m.val = true) :
    exec (.swap o) s = .next (s.permute o.g [.v o.a] o.d fun g x j _ =>
      permuted g s.cur.gang x o.d o.a ((4 * x.num + j.val) ^^^ o.m.val)) := by
  show Host.Outcome.next (if (!s.swapLegal o.m.val) = true then _ else _) = _
  simp only [h, Bool.not_true, Bool.false_eq_true, if_false]

/-- Settles O8: every permute reads the lane that its rule names; PRMT picks its bytes; a SWAP is legal or not by its distance. -/
theorem permutes : Obligations.Permutes := by
  unfold Obligations.Permutes
  refine ⟨fun s gd d a b imm m => ⟨fun hu ho => ⟨fun hc => ?_, fun hl => ⟨?_, ?_⟩⟩, fun hu ho => ⟨?_, ?_, fun h1 hw => ?_⟩⟩,
    fun s o hu hc => ?_, fun s o h => ?_⟩
  · refine congrArg Host.Outcome.next ((State.checked_unmarked s _ _ _ hu).trans
      (s.permute_writes gd [] d a _ (fun g x _ l => (l.get (x.phys g.budget b)).toNat % g.width) s.unmarked_nil ho
        fun g x hi j ha => ?_))
    have hp : ((s.was g x).lane j).poisoned ((s.was g x).phys (s.cur.source g).budget b) = false := hi.not_poisoned hc ha
    simp only [hp, Bool.false_eq_true, if_false]
  · exact congrArg Host.Outcome.next (s.spread_writes ⟨gd, d, a, b⟩ (fun _ k _ => k) hu ho hl)
  · exact congrArg Host.Outcome.next (s.spread_writes ⟨gd, d, a, b⟩ (fun l k _ => l + k) hu ho hl)
  · exact congrArg Host.Outcome.next ((State.checked_unmarked s _ _ _ hu).trans
      (s.permute_writes gd [] d a _ (fun g _ _ _ => imm.toNat % g.width) s.unmarked_nil ho fun _ _ _ _ _ => rfl))
  · exact congrArg Host.Outcome.next ((State.checked_unmarked s _ _ _ hu).trans
      (s.permute_writes gd [] d a _ (fun g x j _ => (4 * x.num + j.val + imm.toNat) % g.width) s.unmarked_nil ho
        fun _ _ _ _ _ => rfl))
  · rw [State.exec_swap_legal s ⟨gd, d, a, m⟩ ((s.swapLegal_iff m.val).mpr ⟨h1, hw⟩)]
    exact congrArg Host.Outcome.next ((State.checked_unmarked s _ _ _ hu).trans
      (s.permute_writes gd [] d a _ (fun _ x j _ => (4 * x.num + j.val) ^^^ m.val) s.unmarked_nil ho fun _ _ _ _ _ => rfl))
  · refine (congrArg Host.Outcome.next (State.laneFixed_writes s o.g _ [.v o.d] (fun g x _ l => { regs := [(x.phys g.budget o.d,
      prmtWord (l.get (x.phys g.budget o.a)) (l.get (x.phys g.budget o.b)) (l.get (x.phys g.budget o.c)))] }) hu hc
      fun _ _ _ _ => rfl)).trans ?_
    simp only [prmtWord_val]
    rfl
  · refine State.exec_swap_illegal s o (Bool.eq_false_iff.mpr fun hs => ?_)
    obtain ⟨h1, hw⟩ := (s.swapLegal_iff _).mp hs
    rcases h with h0 | ⟨p, hp, hle⟩
    · omega
    · exact absurd (hw p hp) (Nat.not_lt.mpr hle)

end Sys2Proof.Machine
end

section
/-! SUPPORT. Scalar instructions whose slices act on the state in turn (R177), when every slice takes part from the start. -/

namespace Sys2Proof.Machine

/-! Lookups by number. -/

/-- Of elements with different keys, the one with a given key is found. -/
theorem find_key_of_nodup {α : Type} (key : α → Nat) : ∀ {l : List α} {a : α}, (l.map key).Nodup → a ∈ l →
    l.find? (fun b => key b == key a) = some a
  | b :: l, a, hn, ha => by
    obtain ⟨hb, hl⟩ := List.nodup_cons.mp (List.map_cons ▸ hn)
    rcases List.mem_cons.mp ha with rfl | ha
    · simp
    · have hne : key b ≠ key a := fun he => hb (he ▸ List.mem_map_of_mem ha)
      rw [List.find?_cons_of_neg (by simpa using hne)]
      exact find_key_of_nodup key hl ha

theorem eq_of_key_of_nodup {α : Type} (key : α → Nat) {l : List α} {a b : α} (hn : (l.map key).Nodup) (ha : a ∈ l) (hb : b ∈ l)
    (h : key a = key b) : a = b :=
  Option.some.inj ((find_key_of_nodup key hn ha).symm.trans (h ▸ find_key_of_nodup key hn hb))

/-- Induction on a list from its end. -/
theorem concat_induction {α : Type} {motive : List α → Prop} (nil : motive [])
    (append_singleton : ∀ l a, motive l → motive (l ++ [a])) (l : List α) : motive l := by
  have h : ∀ r : List α, motive r.reverse := fun r => by
    induction r with
    | nil => exact nil
    | cons a r ih =>
      rw [List.reverse_cons]
      exact append_singleton _ a ih
  exact l.reverse_reverse ▸ h l.reverse

theorem State.named_team? {s : State} (hn : s.named = true) {t : Team} (ht : t ∈ s.teams) : s.team? t.uid = some t := by
  simp only [State.named, Bool.and_eq_true, decide_eq_true_eq, List.map_append] at hn
  exact find_key_of_nodup Team.uid (List.nodup_append.mp hn.1).1 ht

theorem State.named_team {s : State} (hn : s.named = true) {t : Team} (ht : t ∈ s.teams) : t.named = true := by
  simp only [State.named, Bool.and_eq_true, List.all_eq_true] at hn
  exact (hn.2 t (List.mem_append_left _ ht)).2

theorem Team.named_groups {t : Team} (hn : t.named = true) : (t.groups.map (·.num)).Nodup := by
  simp only [Team.named, Bool.and_eq_true, decide_eq_true_eq] at hn
  exact hn.1

theorem Team.named_slices {t : Team} (hn : t.named = true) {g : Group} (hg : g ∈ t.groups) : (g.slices.map (·.num)).Nodup := by
  simp only [Team.named, Bool.and_eq_true, List.all_eq_true, decide_eq_true_eq] at hn
  exact hn.2 g hg

theorem State.team?_uid {s : State} {u : Nat} {t : Team} (h : s.team? u = some t) : t.uid = u := by
  simpa using List.find?_some h

theorem State.cleanScalars_nil (s : State) : s.cleanScalars [] = true := by
  simp [State.cleanScalars, State.gangAll, Slice.scalarPoison]

theorem State.mem_members {s : State} {m : Group × Slice} :
    m ∈ s.members ↔ ∃ t, s.team? s.cur.team = some t ∧ m.1 ∈ t.groups ∧ m.2 ∈ m.1.slices ∧ m.2.inGang s.cur.gang = true := by
  obtain ⟨g, x⟩ := m
  unfold State.members
  cases s.team? s.cur.team with
  | none => simp
  | some t =>
    simp only [Team.members, List.mem_flatMap, List.mem_map, List.mem_filter, Option.some.injEq]
    constructor
    · rintro ⟨g', hg, x', ⟨hx, hi⟩, he⟩
      obtain ⟨rfl, rfl⟩ := Prod.mk.inj he
      exact ⟨t, rfl, hg, hx, hi⟩
    · rintro ⟨t', rfl, hg, hx, hi⟩
      exact ⟨g, hg, x, ⟨hx, hi⟩, rfl⟩

/-- A slice of the issuing team is in the gang when its number is. -/
theorem State.mem_memberNums {s : State} (hn : s.named = true) {t : Team} (ht : t ∈ s.teams) (hu : t.uid = s.cur.team) {g : Group}
    (hg : g ∈ t.groups) {x : Slice} (hx : x ∈ g.slices) : (g.num, x.num) ∈ s.memberNums ↔ x.inGang s.cur.gang = true := by
  have hteam : s.team? s.cur.team = some t := hu ▸ State.named_team? hn ht
  have hnt := State.named_team hn ht
  refine ⟨fun hm => ?_, fun hi => List.mem_map_of_mem (State.mem_members.mpr ⟨t, hteam, hg, hx, hi⟩ : (g, x) ∈ s.members)⟩
  obtain ⟨⟨g', x'⟩, hm', he⟩ := List.mem_map.mp hm
  obtain ⟨heg, hex⟩ := Prod.mk.inj he
  obtain ⟨t', ht', hg', hx', hi⟩ := State.mem_members.mp hm'
  obtain rfl : t' = t := Option.some.inj (ht'.symm.trans hteam)
  obtain rfl : g' = g := eq_of_key_of_nodup Group.num (Team.named_groups hnt) hg' hg heg
  obtain rfl : x' = x := eq_of_key_of_nodup Slice.num (Team.named_slices hnt hg) hx' hx hex
  exact hi

/-- Every slice of the gang has a number of its own. -/
theorem State.memberNums_nodup {s : State} (hn : s.named = true) : s.memberNums.Nodup := by
  unfold State.memberNums State.members
  cases ht : s.team? s.cur.team with
  | none => exact List.nodup_nil
  | some t =>
    have hnt := State.named_team hn (List.mem_of_find?_eq_some ht)
    refine List.pairwise_map.mpr (List.pairwise_flatMap.mpr ⟨fun g hg => ?_, ?_⟩)
    · have hs := List.pairwise_map.mp (Team.named_slices hnt hg)
      exact List.pairwise_map.mpr ((hs.filter _).imp fun hne he => hne (congrArg Prod.snd he))
    · refine (List.pairwise_map.mp (Team.named_groups hnt)).imp fun hne m hm m' hm' he => ?_
      obtain ⟨x, -, rfl⟩ := List.mem_map.mp hm
      obtain ⟨y, -, rfl⟩ := List.mem_map.mp hm'
      exact hne (congrArg Prod.fst he)

/-! Slices that have completed their part. -/

/-- A slice that has completed its part. -/
def Slice.parted (x : Slice) : Slice := { x with sdone := true }

@[simp] theorem Slice.parted_num (x : Slice) : x.parted.num = x.num := rfl
@[simp] theorem Slice.parted_sdone (x : Slice) : x.parted.sdone = true := rfl
@[simp] theorem Slice.parted_inGang (x : Slice) (n : Nat) : x.parted.inGang n = x.inGang n := rfl

theorem State.parted_eq (s : State) (t : Team) (g : Group) (x : Slice) :
    s.parted t g x = s.updTeam t.uid (·.updGroup g.num (·.updSlice x.num Slice.parted)) := rfl

/-- A group in which the slices that ms names have completed their part. -/
def Group.partedAt (ms : List (Nat × Nat)) (g : Group) : Group :=
  g.mapSlices fun x => if (g.num, x.num) ∈ ms then x.parted else x

/-- So in every group of a team. -/
def Team.partedAt (ms : List (Nat × Nat)) (t : Team) : Team := t.mapGroups (·.partedAt ms)

theorem Group.partedAt_append (ms : List (Nat × Nat)) (n k : Nat) (g : Group) :
    g.partedAt (ms ++ [(n, k)]) =
      if g.num = n then (g.partedAt ms).updSlice k Slice.parted else g.partedAt ms := by
  unfold Group.partedAt Group.mapSlices Group.updSlice
  by_cases hg : g.num = n
  · simp only [if_pos hg, List.map_map]
    congr 1
    refine List.map_congr_left fun x _ => ?_
    have hmem : (g.num, x.num) ∈ ms ++ [(n, k)] ↔ (g.num, x.num) ∈ ms ∨ x.num = k := by simp [hg]
    have hagain : x.parted.parted = x.parted := rfl
    by_cases hm : (g.num, x.num) ∈ ms
    · simp only [hmem, hm, true_or, if_true, Function.comp_apply, hagain, ite_self]
    · simp only [hmem, hm, false_or, if_false, Function.comp_apply]
  · simp [hg]

theorem Team.partedAt_append (ms : List (Nat × Nat)) (n k : Nat) (t : Team) :
    t.partedAt (ms ++ [(n, k)]) = (t.partedAt ms).updGroup n (·.updSlice k Slice.parted) := by
  unfold Team.partedAt Team.mapGroups Team.updGroup
  simp only [List.map_map]
  congr 1
  exact List.map_congr_left fun g _ => Group.partedAt_append ms n k g

/-- s1 holds the teams of s, but that the slices of the gang that ms names have completed their part. -/
def State.PartedAs (s : State) (ms : List (Nat × Nat)) (s1 : State) : Prop :=
  s1.cur = s.cur ∧ s1.teams = (s.updTeam s.cur.team (·.partedAt ms)).teams

theorem State.PartedAs.team? {s s1 : State} {ms : List (Nat × Nat)} (h : s.PartedAs ms s1) :
    s1.team? s.cur.team = (s.team? s.cur.team).map (·.partedAt ms) := by
  have hs : s1.team? s.cur.team = (s.updTeam s.cur.team (·.partedAt ms)).team? s.cur.team := by
    unfold State.team?
    rw [h.2]
  rw [hs, State.team?_updTeam s s.cur.team s.cur.team (·.partedAt ms) fun _ => rfl]
  cases ht : s.team? s.cur.team with
  | none => rfl
  | some t => simp [State.team?_uid ht]

theorem Team.partedAt_nil (t : Team) : t.partedAt [] = t := by
  simp [Team.partedAt, Team.mapGroups, Group.partedAt, Group.mapSlices]

theorem State.PartedAs.nil (s : State) : s.PartedAs [] s := by
  refine ⟨rfl, ?_⟩
  simp [State.updTeam, Team.partedAt_nil]

/-- What the lookups find of a slice of the gang that has still to complete its part. -/
theorem State.PartedAs.lookups {s s1 : State} {ms : List (Nat × Nat)} (h : s.PartedAs ms s1) (hn : s.named = true)
    {g : Group} {x : Slice} (hm : (g, x) ∈ s.members) (hx : (g.num, x.num) ∉ ms) :
    ∃ t, s1.team? s.cur.team = some t ∧ t.group? g.num = some (g.partedAt ms) ∧ (g.partedAt ms).slice? x.num = some x := by
  obtain ⟨t, ht, hg, hxg, -⟩ := State.mem_members.mp hm
  have hnt := State.named_team hn (List.mem_of_find?_eq_some ht)
  have hgf : t.group? g.num = some g := find_key_of_nodup Group.num (Team.named_groups hnt) hg
  have hxf : g.slice? x.num = some x := find_key_of_nodup Slice.num (Team.named_slices hnt hg) hxg
  refine ⟨t.partedAt ms, by rw [h.team?, ht]; rfl, ?_, ?_⟩
  · unfold Team.partedAt
    rw [Team.group?_mapGroups t g.num (·.partedAt ms) fun _ => rfl, hgf]
    rfl
  · unfold Group.partedAt
    rw [Group.slice?_map g x.num _ fun y => by split <;> rfl, hxf]
    simp [hx]

/-- One slice more completes its part, in a state that has the same teams. -/
theorem State.PartedAs.parted {s s1 s2 : State} {ms : List (Nat × Nat)} (h : s.PartedAs ms s1) (hc : s2.cur = s1.cur)
    (ht : s2.teams = s1.teams) (n k : Nat) :
    s.PartedAs (ms ++ [(n, k)]) (s2.updSlice s.cur.team n k Slice.parted) := by
  refine ⟨hc.trans h.1, ?_⟩
  show s2.teams.map _ = _
  rw [ht, h.2]
  show (s.teams.map _).map _ = s.teams.map _
  rw [List.map_map]
  refine List.map_congr_left fun t _ => ?_
  by_cases hu : t.uid = s.cur.team
  · have hp : (t.partedAt ms).uid = s.cur.team := hu
    simp only [Function.comp_apply, if_pos hu, if_pos hp, Team.partedAt_append]
  · simp only [Function.comp_apply, if_neg hu]

/-! The turns. -/

theorem State.inTurn_append (s : State) (ms : List (Nat × Nat)) (m : Nat × Nat) (f : State → Team → Group → Slice → State) :
    s.inTurn (ms ++ [m]) f =
      match (s.inTurn ms f).team? s.cur.team, (s.inTurn ms f).group? s.cur.team m.1,
          (s.inTurn ms f).sliceAt s.cur.team m.1 m.2 with
      | some t, some g, some x => f (s.inTurn ms f) t g x
      | _, _, _ => s.inTurn ms f := by
  unfold State.inTurn
  rw [List.foldl_append]
  rfl

/-- A property that every turn keeps holds after any number of them. -/
theorem State.inTurn_keeps {I : State → Prop} {s : State} {f : State → Team → Group → Slice → State} (h0 : I s)
    (hk : ∀ s1 t g x, I s1 → s1.team? s.cur.team = some t → I (f s1 t g x)) (ms : List (Nat × Nat)) : I (s.inTurn ms f) := by
  induction ms using concat_induction with
  | nil => exact h0
  | append_singleton ms m ih =>
    rw [State.inTurn_append]
    split
    next t g x ht _ _ => exact hk _ t g x ih ht
    next => exact ih

theorem Scan.step_ok {a : Scan} {rd : List Reg} {f : State → Team → Group → Slice → SlEnd} {n k : Nat} {t : Team} {g : Group}
    {x : Slice} {s1 : State} (ht : a.s.team? a.s.cur.team = some t) (hg : t.group? n = some g) (hx : g.slice? k = some x)
    (hb : x.begins = true) (hp : x.scalarPoison rd = false) (hf : f a.s t g x = .ok s1) :
    a.step rd f n k = { a with s := s1.updSlice a.s.cur.team n k Slice.parted } := by
  have hb' : ¬ (x.sdone || x.isParked || x.isHeld) = true := by simpa [Slice.begins, and_assoc] using hb
  unfold Scan.step
  simp only [ht, hg, hx, hp, hf, if_neg hb', Bool.false_eq_true, if_false]
  rfl

theorem State.endScalar_of_parted {s s1 : State} (hn : s.named = true) (h : s.PartedAs s.memberNums s1) :
    s1.endScalar = s1.mapGang fun _ x => x.done := by
  unfold State.endScalar
  refine if_pos (List.all_eq_true.mpr fun m hm => ?_)
  obtain ⟨t1, ht1, hg1, hx1, hi⟩ := State.mem_members.mp hm
  rw [h.1, h.team?, Option.map_eq_some_iff] at ht1
  obtain ⟨t, ht, rfl⟩ := ht1
  obtain ⟨g, hg, hgm⟩ := List.mem_map.mp hg1
  rw [← hgm] at hx1
  obtain ⟨x, hx, hxm⟩ := List.mem_map.mp hx1
  have hmem := State.mem_memberNums hn (List.mem_of_find?_eq_some ht) (State.team?_uid ht) hg hx
  by_cases hin : x.inGang s.cur.gang = true
  · rw [← hxm, if_pos (hmem.mpr hin), Slice.parted_sdone]
  · rw [h.1, ← hxm, if_neg fun hk => hin (hmem.mp hk)] at hi
    exact absurd hi hin

/-- What a slice does in its turn: h, and then it has completed its part. -/
def parting (h : State → Team → Group → Slice → State) (s1 : State) (t : Team) (g : Group) (x : Slice) : State :=
  (h s1 t g x).parted t g x

section
variable {s : State} {h : State → Team → Group → Slice → State} (hn : s.named = true)
  (hc : ∀ s1 t g x, (h s1 t g x).cur = s1.cur) (ht : ∀ s1 t g x, (h s1 t g x).teams = s1.teams)
include hn

/-- The next turn finds its slice as the instruction found it. -/
theorem State.PartedAs.turn {ms rest : List (Nat × Nat)} {m : Nat × Nat} (hsplit : s.memberNums = ms ++ m :: rest)
    (hparted : s.PartedAs ms (s.inTurn ms (parting h))) :
    ∃ t g x, (g, x) ∈ s.members ∧ m = (g.num, x.num) ∧ (s.inTurn ms (parting h)).team? s.cur.team = some t ∧
      t.group? g.num = some (g.partedAt ms) ∧ (g.partedAt ms).slice? x.num = some x ∧
      s.inTurn (ms ++ [m]) (parting h) = (h (s.inTurn ms (parting h)) t (g.partedAt ms) x).updSlice s.cur.team m.1 m.2
        Slice.parted := by
  have hm : m ∈ s.memberNums := hsplit ▸ List.mem_append_right _ List.mem_cons_self
  have hnew : m ∉ ms := fun hms =>
    (List.nodup_append.mp (hsplit ▸ State.memberNums_nodup hn)).2.2 m hms m List.mem_cons_self rfl
  obtain ⟨⟨g, x⟩, hgx, rfl⟩ := List.mem_map.mp hm
  obtain ⟨t, ht, hg, hx⟩ := hparted.lookups hn hgx hnew
  refine ⟨t, g, x, hgx, rfl, ht, hg, hx, ?_⟩
  rw [State.inTurn_append]
  simp only [State.sliceAt, State.group?, ht, hg, hx, Option.bind_some]
  rw [← State.team?_uid ht]
  rfl

include hc ht

/-- When each slice leaves the teams as they are, the turns leave them so but for the parts that they complete. -/
theorem State.inTurn_parted (ms : List (Nat × Nat)) :
    ∀ rest, s.memberNums = ms ++ rest → s.PartedAs ms (s.inTurn ms (parting h)) := by
  induction ms using concat_induction with
  | nil => exact fun _ _ => State.PartedAs.nil s
  | append_singleton ms m ih =>
    intro rest hsplit
    rw [List.append_assoc, List.singleton_append] at hsplit
    have hparted := ih (m :: rest) hsplit
    obtain ⟨t, g, x, -, -, -, -, -, hturn⟩ := hparted.turn hn hsplit
    rw [hturn]
    exact hparted.parted (hc _ _ _ _) (ht _ _ _ _) m.1 m.2

variable {pr : List Reg} {f : State → Team → Group → Slice → SlEnd} (hb : s.begins = true) (hp : s.cleanScalars pr = true)
  (hf : s.whenInTurn h fun s1 t g x => f s1 t g x = .ok (h s1 t g x))
include hb hp hf

/-- The scan over the gang finds no fault and no parked slice, and its state is that of the turns. -/
theorem State.scan_inTurn (ms : List (Nat × Nat)) : ∀ rest, s.memberNums = ms ++ rest →
    ms.foldl (fun (a : Scan) m => a.step pr f m.1 m.2) { s := s } = { s := s.inTurn ms (parting h) } := by
  induction ms using concat_induction with
  | nil => exact fun _ _ => rfl
  | append_singleton ms m ih =>
    intro rest hsplit
    rw [List.append_assoc, List.singleton_append] at hsplit
    have hparted := State.inTurn_parted hn hc ht ms (m :: rest) hsplit
    obtain ⟨t, g, x, hgx, rfl, ht1, hg1, hx1, hturn⟩ := hparted.turn hn hsplit
    obtain ⟨t0, ht0, hu0, hg0, hx0, hi0⟩ := State.members_of hgx
    have hbegins : x.begins = true := State.gangAll_mem hb ht0 hu0 hg0 hx0 hi0
    have hclean : x.scalarPoison pr = false := by simpa using State.gangAll_mem hp ht0 hu0 hg0 hx0 hi0
    have hg2 : (s.inTurn ms (parting h)).group? s.cur.team g.num = some (g.partedAt ms) := by simp [State.group?, ht1, hg1]
    have hx2 : (s.inTurn ms (parting h)).sliceAt s.cur.team g.num x.num = some x := by simp [State.sliceAt, hg2, hx1]
    have hok : f (s.inTurn ms (parting h)) t (g.partedAt ms) x = .ok (h (s.inTurn ms (parting h)) t (g.partedAt ms) x) :=
      hf ms _ rest hsplit t _ x ht1 hg2 hx2
    rw [List.foldl_append, ih _ hsplit, List.foldl_cons, List.foldl_nil, hturn,
      Scan.step_ok (hparted.1 ▸ ht1) hg1 hx1 hbegins hclean hok, hparted.1]

/-- A scalar instruction whose slices all act without a fault, and leave the teams as they are. -/
theorem State.scalarEachOf_allInTurn {rd wr : List Reg} (hu : s.unmarked rd wr = true) :
    s.scalarEachOf pr rd wr f = s.allInTurn h := by
  have hscan := State.scan_inTurn hn hc ht hb hp hf s.memberNums [] (List.append_nil _).symm
  unfold State.scalarEachOf
  rw [State.checked_unmarked s rd wr _ hu]
  unfold State.memberNums at hscan
  simp only [hscan]
  exact State.endScalar_of_parted hn (State.inTurn_parted hn hc ht s.memberNums [] (List.append_nil _).symm)

end

/-! A part that leaves no trace once the instruction is done. -/

theorem Slice.foldWords_parted (x : Slice) : x.parted.foldWords = x.foldWords.parted := by
  have hword : x.parted.wordAt 0 = x.wordAt 0 := rfl
  unfold Slice.foldWords
  rw [hword]
  cases x.wordAt 0 with
  | none => rfl
  | some w => rfl

theorem Slice.advance_parted (x : Slice) : x.parted.advance = x.advance := rfl

@[simp] theorem Slice.done_parted (x : Slice) : x.parted.done = x.done := by
  rw [Slice.done, Slice.foldWords_parted, Slice.advance_parted, Slice.done]

theorem State.updTeam_updTeam (s : State) (u : Nat) {f k : Team → Team} (hf : ∀ t, (f t).uid = t.uid) :
    (s.updTeam u f).updTeam u k = s.updTeam u fun t => k (f t) := by
  unfold State.updTeam
  simp only [List.map_map]
  congr 1
  refine List.map_congr_left fun t _ => ?_
  by_cases hu : t.uid = u <;> simp [hu, hf]

/-- Once the gang has gone past the instruction, nothing is left of its slices' having completed their parts. -/
theorem State.mapGang_done_parted {s : State} (hn : s.named = true) :
    (s.updTeam s.cur.team (·.partedAt s.memberNums)).mapGang (fun _ y => y.done) = s.mapGang fun _ y => y.done := by
  refine (State.updTeam_updTeam s s.cur.team (f := Team.partedAt s.memberNums) fun _ => rfl).trans ?_
  refine State.updTeam_congr fun t ht hu => ?_
  refine congrArg (fun gs => { t with groups := gs }) ((List.map_map).trans (List.map_congr_left fun g hg => ?_))
  refine congrArg (fun xs => { g with slices := xs }) ((List.map_map).trans (List.map_congr_left fun x hx => ?_))
  have hmem := State.mem_memberNums hn ht hu hg hx
  by_cases hi : x.inGang s.cur.gang = true
  · simp [hmem, hi]
  · simp [hmem, hi]

/-- What follows of every state that the turns can reach holds in each turn. -/
theorem State.eachTurn_of_keeps {I : State → Prop} {s : State} {f : State → Team → Group → Slice → State}
    {p : State → Team → Group → Slice → Prop} (h0 : I s) (hk : ∀ s1 t g x, I s1 → s1.team? s.cur.team = some t → I (f s1 t g x))
    (hp : ∀ s1 t g x, I s1 → s1.team? s.cur.team = some t → p s1 t g x) : s.eachTurn f p :=
  fun ms _ _ _ t g x ht _ _ => hp _ t g x (State.inTurn_keeps h0 hk ms) ht

/-- Slices that only complete their part go past the instruction, and nothing else changes. -/
theorem State.allInTurn_idle {s : State} (hn : s.named = true) : (s.allInTurn fun s1 _ _ _ => s1) = s.mapGang fun _ x => x.done := by
  have hparted := State.inTurn_parted hn (h := fun s1 _ _ _ => s1) (fun _ _ _ _ => rfl) (fun _ _ _ _ => rfl) s.memberNums []
    (List.append_nil _).symm
  have hrest : s.inTurn s.memberNums (parting fun s1 _ _ _ => s1) =
      s.withTeams (s.inTurn s.memberNums (parting fun s1 _ _ _ => s1)).teams :=
    State.inTurn_keeps (I := fun s1 => s1 = s.withTeams s1.teams) (f := parting fun s1 _ _ _ => s1) rfl
      (fun s1 t g x h _ => congrArg (fun s2 : State => s2.parted t g x) h) s.memberNums
  rw [← State.mapGang_done_parted hn]
  refine congrArg (fun s1 : State => s1.mapGang fun _ x => x.done) (hrest.trans ?_)
  rw [hparted.2]
  rfl

end Sys2Proof.Machine
end

section
/-! PROOFS. SID, LDARG, BRK and MARK (R238, R239, R244, R245, R247): a trace record leaves the teams, the launches and the trace
control of the dies as they are. -/

namespace Sys2Proof.Machine

/-! Records that the device writes (R413). -/

/-- s1 is s but for main memory, its poison and keys, the partitions' registers, and the dies, whose trace control it keeps. -/
def State.Stored (s s1 : State) : Prop :=
  s1 = { s with mem := s1.mem, poison := s1.poison, tags := s1.tags, partitions := s1.partitions, dies := s1.dies } ∧
    ∀ d, (s1.die d).trace = (s.die d).trace

theorem State.Stored.refl (s : State) : s.Stored s := ⟨rfl, fun _ => rfl⟩

theorem State.Stored.trans {s s1 s2 : State} (h : s.Stored s1) (h' : s1.Stored s2) : s.Stored s2 := by
  obtain ⟨h, hd⟩ := h
  obtain ⟨h', hd'⟩ := h'
  refine ⟨?_, fun d => (hd' d).trans (hd d)⟩
  rw [h', h]

theorem State.rekey_stored (s : State) (k : Key) (g : Nat) : s.Stored (s.rekey k g) := by
  unfold State.rekey
  split
  · split
    · exact State.Stored.refl s
    · exact ⟨rfl, fun _ => rfl⟩
  · exact ⟨rfl, fun _ => rfl⟩

theorem State.rekeys_stored (k : Key) : ∀ (gs : List Nat) (s : State), s.Stored (gs.foldl (fun (t : State) g => t.rekey k g) s)
  | [], s => State.Stored.refl s
  | g :: gs, s => (s.rekey_stored k g).trans (State.rekeys_stored k gs (s.rekey k g))

theorem State.writeMain_stored (s : State) (key : Option Key) (a : Nat) (bs : List (Byte × Bool)) : s.Stored (s.writeMain key a bs) := by
  cases key with
  | none => exact ⟨rfl, fun _ => rfl⟩
  | some k => exact (State.rekeys_stored k (granules a bs.length) s).trans ⟨rfl, fun _ => rfl⟩

theorem State.writeRuns_stored : ∀ (ts : List (Target × Nat)) (s : State) (bs : List (Byte × Bool)), s.Stored (s.writeRuns ts bs)
  | [], s, _ => State.Stored.refl s
  | (x, n) :: r, s, bs => (s.writeMain_stored x.key _ (bs.take n)).trans (State.writeRuns_stored r _ (bs.drop n))

theorem State.updPart_stored (s : State) (p : Nat) (f : Partition → Partition) : s.Stored (s.updPart p f) := ⟨rfl, fun _ => rfl⟩

theorem State.writeRecord_stored (s : State) (d p va : Nat) (bs : List Byte) : s.Stored (s.writeRecord d p va bs).1 := by
  unfold State.writeRecord State.writeGlobal
  split
  next t ht =>
    split at ht
    · cases ht
      exact State.writeRuns_stored _ s _
    · cases ht
  next => exact s.updPart_stored _ _

theorem atV_updV_keeps {α β : Type} {n : Nat} (φ : α → β) (v : Vector α n) (i j : Nat) (d : α) {f : α → α}
    (hf : ∀ a, φ (f a) = φ a) : φ (atV (updV v i f) j d) = φ (atV v j d) := by
  unfold atV updV
  by_cases hj : j < n
  · by_cases hi : i < n
    · by_cases hij : i = j
      · subst hij
        simp [hi, hf]
      · simp [hi, hj, hij]
    · simp [hi, hj]
  · simp [hj]

theorem State.tick_stored (s : State) (d : Nat) : s.Stored (s.tick d) :=
  ⟨rfl, fun k => atV_updV_keeps Die.trace s.dies d k Die.near fun _ => rfl⟩

theorem State.trace_stored (s : State) (d p kind group : Nat) (tag num team : Word) (data : DWord) :
    s.Stored (s.trace d p kind group tag num team data) := by
  unfold State.trace
  split
  · exact State.Stored.refl s
  · exact ((s.tick_stored d).trans (State.updPart_stored _ p _)).trans (State.writeRecord_stored _ _ _ _ _)

theorem State.Stored.teams {s s1 : State} (h : s.Stored s1) : s1.teams = s.teams := by rw [h.1]
theorem State.Stored.cur {s s1 : State} (h : s.Stored s1) : s1.cur = s.cur := by rw [h.1]
theorem State.Stored.launches {s s1 : State} (h : s.Stored s1) : s1.launches = s.launches := by rw [h.1]

/-! MARK (R245, R394). -/

/-- Trace records go out of s1 as of s: the launches, the dies' trace control, and the seat of the issuing team are those of s. -/
def State.TracesAs (s s1 : State) : Prop :=
  s1.launches = s.launches ∧ (∀ d, (s1.die d).trace = (s.die d).trace) ∧
    (s1.team? s.cur.team).map Team.seat = (s.team? s.cur.team).map Team.seat

theorem State.TracesAs.refl (s : State) : s.TracesAs s := ⟨rfl, fun _ => rfl, rfl⟩

theorem State.TracesAs.parted {s s1 : State} (h : s.TracesAs s1) (t : Team) (g : Group) (x : Slice) : s.TracesAs (s1.parted t g x) := by
  obtain ⟨hl, hd, hs⟩ := h
  refine ⟨hl, hd, ?_⟩
  rw [State.parted_eq, State.team?_updTeam s1 t.uid s.cur.team (·.updGroup g.num (·.updSlice x.num Slice.parted)) fun _ => rfl,
    Option.map_map, ← hs]
  congr 1
  funext u
  by_cases hu : u.uid = t.uid
  · simp only [Function.comp_apply, if_pos hu]
    rfl
  · simp only [Function.comp_apply, if_neg hu]

theorem State.TracesAs.stored {s s1 s2 : State} (h : s.TracesAs s1) (h' : s1.Stored s2) : s.TracesAs s2 := by
  obtain ⟨hl, hd, hs⟩ := h
  refine ⟨h'.launches.trans hl, fun k => (h'.2 k).trans (hd k), ?_⟩
  unfold State.team?
  rw [h'.teams]
  exact hs

/-- The issuing team of such a state, where it sits. -/
theorem State.TracesAs.seat {s s1 : State} (h : s.TracesAs s1) {t t1 : Team} (ht : s.team? s.cur.team = some t)
    (ht1 : s1.team? s.cur.team = some t1) :
    t1.launch = t.launch ∧ t1.partition = t.partition ∧ t1.die = t.die ∧ t1.lin = t.lin := by
  obtain ⟨-, -, hs⟩ := h
  rw [ht, ht1] at hs
  have hseat : t1.seat = t.seat := Option.some.inj hs
  simp only [Team.seat, Prod.mk.injEq] at hseat
  obtain ⟨⟨-, hl, hp⟩, ⟨hd, -, hn⟩, -⟩ := hseat
  exact ⟨hl, hp, hd, hn⟩

/-- MARK while the die's trace control is clear. -/
theorem State.exec_mark_off (s : State) (w : Word) {t : Team} (hn : s.named = true) (ht : s.team? s.cur.team = some t)
    (hb : s.begins = true) (hoff : (s.die t.die.val).trace.getLsbD 0 = false) :
    exec (.mark w) s = .next (s.mapGang fun _ x => x.done) := by
  rw [← State.allInTurn_idle hn]
  refine congrArg Host.Outcome.next (State.scalarEachOf_allInTurn hn (fun _ _ _ _ => rfl) (fun _ _ _ _ => rfl) hb s.cleanScalars_nil
    (State.eachTurn_of_keeps (I := s.TracesAs) (State.TracesAs.refl s) (fun s1 t g x h _ => h.parted t g x) ?_) s.unmarked_nil)
  intro s1 t1 g x h ht1
  obtain ⟨-, -, hd, -⟩ := h.seat ht ht1
  obtain ⟨-, htr, -⟩ := h
  simp only [bit, htr, hd, hoff, Bool.false_eq_true, if_false]

/-- MARK while the die's trace control is set. -/
theorem State.exec_mark_on (s : State) (w : Word) {t : Team} {l : Launch} (hn : s.named = true) (ht : s.team? s.cur.team = some t)
    (hb : s.begins = true) (hon : (s.die t.die.val).trace.getLsbD 0 = true) (hl : s.launch? t.launch = some l) :
    exec (.mark w) s = .next (s.allInTurn fun s1 _ g _ =>
      s1.trace t.die.val t.partition.val 1 g.num l.tag l.num (BitVec.ofNat 32 t.lin) (w.zeroExtend 64)) := by
  refine congrArg Host.Outcome.next (State.scalarEachOf_allInTurn hn (fun _ _ _ _ => (State.trace_stored ..).cur)
    (fun _ _ _ _ => (State.trace_stored ..).teams) hb s.cleanScalars_nil
    (State.eachTurn_of_keeps (I := s.TracesAs) (State.TracesAs.refl s)
      (fun s1 t g x h _ => (h.stored (State.trace_stored ..)).parted t g x) ?_) s.unmarked_nil)
  intro s1 t1 g x h ht1
  obtain ⟨hla, hpa, hd, hlin⟩ := h.seat ht ht1
  obtain ⟨hls, htr, -⟩ := h
  have hl1 : s1.launch? t1.launch = some l := by
    unfold State.launch?
    rw [hls, hla]
    exact hl
  simp only [bit, htr, hd, hon, hl1, hpa, hlin, if_true]

/-! SID and LDARG (R238, R239). -/

theorem State.scalarOf_writes (s : State) (d : SReg) (v : Team → Launch → Group → Slice → Word) {t : Team} {l : Launch}
    (ht : s.team? s.cur.team = some t) (hl : s.launch? t.launch = some l) (hu : s.unmarked [] [.s d] = true) :
    s.scalarOf d v = s.mapGang fun g x => (x.setS d (v t l g x)).done := by
  unfold State.scalarOf
  simp only [ht, hl]
  exact State.scalar_clean s _ _ _ _ hu s.cleanScalars_nil fun _ _ => rfl

theorem Group.depth_val (g : Group) : g.depth = 4 * g.width * (g.slices.map (·.lo)).foldl max 0 := by
  rw [Group.depth, List.foldl_map]

theorem State.exec_sid (s : State) (d : SReg) (sel : SidSel) (n : Group → Slice → Nat) {t : Team} {l : Launch}
    (ht : s.team? s.cur.team = some t) (hl : s.launch? t.launch = some l) (hu : s.unmarked [] [.s d] = true)
    (hv : ∀ g x, s.sidValue t l g x sel = n g x) :
    exec (.sid ⟨d, sel⟩) s = .next (s.mapGang fun g x => (x.setS d (BitVec.ofNat 32 (n g x))).done) := by
  refine (congrArg Host.Outcome.next (s.scalarOf_writes d _ ht hl hu)).trans ?_
  simp only [hv]

/-! BRK (R244, R247). -/

theorem State.exec_brk_off (s : State) {t : Team} (ht : s.team? s.cur.team = some t)
    (hoff : s.control.getLsbD (16 + t.partition.val) = false) : exec .brk s = .next (s.mapGang fun _ x => x.done) := by
  have hd : s.debugOn t.partition.val = false := hoff
  show Host.Outcome.next _ = _
  simp only [ht, hd, Bool.false_eq_true, if_false]
  exact congrArg Host.Outcome.next (State.scalar_clean s _ _ _ _ s.unmarked_nil s.cleanScalars_nil fun _ _ => rfl)

/-- Settles O21: an identity or an argument word is written as any scalar result is; MARK is a scalar instruction whose slices act
in turn, each on a state whose trace control, launches and team are as they were. -/
theorem identitiesAndMarks : Obligations.IdentitiesAndMarks := by
  unfold Obligations.IdentitiesAndMarks
  refine ⟨fun s d t l ht hl hu => ⟨fun p hp => ?_, fun off => ?_⟩,
    fun s w t hn ht hb => ⟨fun hoff => s.exec_brk_off ht hoff, fun hoff => s.exec_mark_off w hn ht hb hoff,
      fun l hon hl => s.exec_mark_on w hn ht hb hon hl⟩⟩
  · refine s.exec_sid d p.1 p.2 ht hl hu fun g x => ?_
    simp only [List.mem_cons, List.not_mem_nil, or_false] at hp
    rcases hp with rfl | rfl | rfl | rfl | rfl | rfl | rfl | rfl | rfl | rfl | rfl | rfl | rfl | rfl | rfl | rfl | rfl | rfl | rfl
    · exact rfl
    · exact rfl
    · exact rfl
    · exact rfl
    · exact rfl
    · exact rfl
    · exact rfl
    · exact rfl
    · exact rfl
    · exact rfl
    · exact rfl
    · exact rfl
    · exact rfl
    · exact rfl
    · exact rfl
    · exact rfl
    · exact rfl
    · exact rfl
    · exact g.depth_val
  · exact congrArg Host.Outcome.next (s.scalarOf_writes d _ ht hl hu)

end Sys2Proof.Machine
end
